-- ==== Sys2Proof/Word.lean ====
section
/-! DEFINITION. The word types of the host link and the index types of the node (00_scope.md R8, R15). -/
namespace Sys2Proof

/-- A 32-bit register value, little-endian on the host link (R15). -/
abbrev Word := BitVec 32
/-- One byte. -/
abbrev Byte := BitVec 8
/-- A signed 16-bit quantity as the converters and the observer hold it. -/
abbrev Half := BitVec 16

/-- Axes 0 to 23 are the node's own; 24 to 47 are the partner's while carried (R8, R540). -/
abbrev AxisId := Fin 48
/-- Banks 0 to 5 are the node's own; 6 to 11 are the partner's while carried (R8, R540). -/
abbrev BankId := Fin 12
/-- Position of an axis within its bank (R10). -/
abbrev Pos := Fin 4
/-- Leg of a bank: word number w of R331, position w div 4, A1 A2 B1 B2 as w mod 4. -/
abbrev LegId := Fin 16
/-- Mailbox MB0 to MB7 (R107). -/
abbrev MbId := Fin 8
/-- Feedback channel FB0 to FB7 (R10). -/
abbrev FbId := Fin 8
/-- Emulation output EMU0 to EMU3 (R10). -/
abbrev EmuId := Fin 4
/-- GPIO pin 0 to 15 (R569). -/
abbrev PinId := Fin 16
/-- Stream window 0 to 15 (R128). -/
abbrev WinId := Fin 16

end Sys2Proof
end

