-- ==== Sys2Proof/Syntax.lean ====
section
/-! DEFINITION. The commands and events of the node, one constructor per row of spec/opcode_table.json
(95_what_each_step_holds.md), each with what the outside supplies to that step. -/
namespace Sys2Proof

/-- Where a host-link word lies: the INDEX of the command byte and the number of words before it in its
transaction (R54, R55, R66). -/
structure Slot where
  index : BitVec 7
  nth : Nat
  deriving DecidableEq, Repr

/-- How far a read went before nSEL rose (R56, R71). -/
inductive Sent where
  | cutBefore   -- nSEL rose in the turnaround or the status byte
  | statusOnly  -- the status byte was sent in full, the word was not
  | full        -- the word was sent in full
  deriving DecidableEq, Repr

/-- What a bank converter event measures besides the results: the rotor estimate of R278 of each position,
the words whose parity check fails at this use (R99), and whether the bus comparator exceeds 440 V (R355). -/
structure Sample where
  results : Vector Half 18
  rotor : Vector Half 4
  badWords : List Nat
  over440 : Bool
  deriving DecidableEq, Repr

/-- A leg and the PWM count of the period at which a protection sees it; while no switch of the leg is on, the count at which
the last one was turned off (R304, R346). -/
structure LegAt where
  leg : Pos
  count : Nat
  deriving DecidableEq, Repr

/-- An emulation output and the sample of 240 MHz, counted from the latest tick edge, at which it could step (R413). -/
structure EmuAt where
  out : EmuId
  clock : Nat
  deriving DecidableEq, Repr

/-- One axis as a heartbeat carries it (R534). -/
structure AxisReport where
  pos : Int
  state : BitVec 3
  posunk : Bool
  moving : Bool
  imag : BitVec 12
  deriving DecidableEq, Repr

/-- One axis as a hand-over carries it: its report, and the leg faults with `TRIES`, `LATCH` and `RPEND` of its bank as the
handing node last saw them (R354, R538, R598). -/
structure HandedAxis where
  report : AxisReport
  legflt : Word
  arm : Byte
  deriving DecidableEq, Repr

/-- One record of a configuration set (R512): parameter key (unit, identifier, word index) and value. -/
structure Record where
  key : Nat
  value : Word
  deriving DecidableEq, Repr

/-- What the outside decides about an image that is checked under R521. For an image in a slot `cause` 6 says that its
signature does not verify, and the other fields are not used; an image on the memory port is read by the Starter
alone, so all of it comes from here: the first check that fails (0: it verifies), version, rollback level, key index
and hash. -/
structure ImageCheck where
  cause : BitVec 4
  version : Word
  rollback : Byte
  keyIdx : BitVec 2
  hash : BitVec 256
  deriving DecidableEq, Repr

/-- Each constructor is one row of the table; the docstring of its meaning cites the rules. -/
inductive Instr where
  -- host link
  | hostWrite (slot : Slot) (word : Word) (cut : Bool)
  | pageWrite (nth : Nat) (word : Word) (cut : Bool)
  | hlcfgWrite (word : Word)
  | compatWrite (word : Word)
  | hlsyncRead (sent : Sent)
  | wideLowRead (slot : Slot) (sent : Sent) (load : Bool)
  | wideLowWrite (slot : Slot) (word : Word)
  | wideHighWrite (slot : Slot) (word : Word)
  | sframeLowHalfRead (slot : Slot) (sent : Sent)
  | queuePop (sent : Sent) (collide : Bool)
  | queuePeek (collide : Bool)
  | tracePop (sent : Sent) (collide : Bool)
  | streamWindowWrite (nth : Nat) (word : Word)
  | windowStatusRead (nth : Nat) (sent : Sent)
  | linkReset
  | mailboxRing (m : MbId) (word : Word)
  | batchWrite (word : Word)
  | nerrRelease (word : Word)
  | faultAcknowledge (slot : Slot) (word : Word)
  | frxWrite (slot : Slot) (word : Word)
  -- reset, power and boot
  | nrstPulse (cmpt : Bool)
  | powerOnResetEnd (cmpt : Bool)
  | nodePowerLoss
  | vauxChangeover (above : Bool)
  | starterBoot (imgA imgB imgExt : ImageCheck)
  | firmwareStart
  | referenceLoss (cmpt : Bool)
  | referenceReturn
  | debugHalt
  | debugResume
  -- mailbox commands, each executed for the mailbox named
  | nop (m : MbId)
  | identify (m : MbId)
  | getParam (m : MbId)
  | setParam (m : MbId)
  | getActive (m : MbId)
  | commit (m : MbId)
  | store (m : MbId)
  | fence (m : MbId)
  | enable (m : MbId)
  | service (m : MbId)
  | resetBlock (m : MbId)
  | streamOpen (m : MbId)
  | streamClose (m : MbId)
  | sIdent (m : MbId)
  | sGet (m : MbId)
  | sSet (m : MbId)
  | sCommit (m : MbId)
  | sStore (m : MbId)
  | sEnable (m : MbId)
  | sMove (m : MbId)
  | sVelocity (m : MbId)
  | sStop (m : MbId)
  | sReset (m : MbId)
  | moveTo (m : MbId)
  | moveBy (m : MbId)
  | velocity (m : MbId)
  | stop (m : MbId)
  | setPosition (m : MbId)
  | streamStart (m : MbId)
  | streamFlush (m : MbId)
  | streamAck (m : MbId)
  | harmClear (m : MbId)
  | harmSet (m : MbId)
  | tableDefault (m : MbId)
  | home (m : MbId)
  | safeForce (m : MbId)
  | safeRelease (m : MbId)
  | spareSwap (m : MbId)
  | spareReturn (m : MbId)
  | queueFlush (m : MbId)
  | fbSet (m : MbId)
  | fbXref (m : MbId)
  | entryRestart (m : MbId)
  | busDischarge (m : MbId)
  | kilnRestore (m : MbId)
  | faultLog (m : MbId)
  | faultTest (m : MbId)
  | memXfer (m : MbId)
  | xbufPut (m : MbId)
  | xbufGet (m : MbId)
  | memProg (m : MbId)
  | memErase (m : MbId)
  | fwInfo (m : MbId)
  | fwBegin (m : MbId) (verified : Bool)
  | fwWrite (m : MbId) (verified : Bool)
  | fwFetch (m : MbId)
  | fwVerify (m : MbId) (check : ImageCheck) (verified : Bool)
  | fwSwap (m : MbId) (verified : Bool)
  | fwConfirm (m : MbId) (verified : Bool)
  | bootCfg (m : MbId) (verified : Bool)
  | nvClear (m : MbId) (verified : Bool)
  | poslogRead (m : MbId)
  | keepRead (m : MbId)
  | fuseBlow (m : MbId)
  | pairHandover (m : MbId)
  | pairRelease (m : MbId)
  | bankCal (m : MbId)
  | bankCalComplete (b : BankId) (offsets : Vector Half 16)
  -- ticks, motion and proofs
  | tickEdge (enPins : BitVec 24)
  | homingBackoff (n : AxisId)
  | blindmv (n : AxisId)
  | holdDelayExpire (n : AxisId)
  | i2tEmpty (n : AxisId)
  | i2tRefilled (n : AxisId)
  | triesReset (n : AxisId)
  | proofScan (upsets : List Record)
  | harmonicCopyRefresh
  | poslogEntryWrite (verified : Bool)
  -- bank link and banks
  | downstreamPacketReceive (b : BankId) (crcOk : Bool)
  | upstreamPacketCheck (b : BankId) (crcOk : Bool)
  | bankTickEdge (b : BankId)
  | bankLinkLost (b : BankId)
  | nodeLinkLost (b : BankId)
  | recoveredClockLoss (b : BankId)
  | bankRelock (b : BankId)
  | bankReinitialise (b : BankId)
  | orphanDecelEnd (b : BankId)
  | bankSupplyUp (b : BankId)
  | bankSupplyDown (b : BankId)
  | bankLinkUp (b : BankId)
  | pwmClockLoss (b : BankId)
  | pwmPeriodStart (b : BankId)
  | triggerEvent (b : BankId) (point : BitVec 2) (smp : Sample)
  | parityScan (b : BankId) (badWords : List Nat)
  | phaseSaturation (n : AxisId) (phB : Bool)
  | openPhase (n : AxisId) (phB : Bool)
  | trackingError (n : AxisId) (phB : Bool)
  | desaturation (n : AxisId) (leg : LegAt) (high blocks : Bool)
  | overcurrent (n : AxisId) (leg : LegAt) (blocks : Bool)
  | gateSupplyUv (n : AxisId) (leg : Pos) (high blocks : Bool)
  | interlock (n : AxisId) (leg : Pos)
  | busOvervoltage (b : BankId)
  | driverRailUv (b : BankId)
  | releaseTimeout (n : AxisId)
  | retryWaitExpire (n : AxisId)
  | spareSwapComplete (b : BankId) (checkOk seriesOk : Bool)
  | serviceEntry (b : BankId)
  | safeInputAssert (stop : Bool) (b : BankId)
  | safeInputRelease (stop : Bool) (b : BankId)
  -- power entry and energy
  | mainsHalfCycle (rms : Half)
  | budgetUpdate (pin : Half)
  | mainsLoss
  | mainsLow
  | mainsHighRecover
  | mainsFreq
  | mainsReturn
  | prechargeStart
  | capacitanceCheck (rise : Word)
  | inrushClose
  | entryRun (testI bus : Half)
  | prechargeTimeout (late : Bool)
  | refusalExpire
  | overloadEmpty
  | overloadRefilled
  | chopperSwitch (on : Bool)
  | choplong
  | pfcOvervoltage
  | busLow
  | auxConverterSwitch (up : Bool)
  | activeDischargeStart
  | dischargeEnd
  | dischargeAccountEmpty
  | dischargeResume
  | outputCurrentLimit (s5v : Bool)
  | kntcMeasure (temp : Byte) (plausible : Bool) (vkeep : Half)
  | vkeepLoss
  -- Kiln, fault reactions
  | sensorBroken (b : BankId) (input : Fin 8)
  | dieSensorRead (reading : Half)
  | blockResetReaction
  | nodeResetReaction (cmpt : Bool)
  | nmiEntry
  | nerrMinExpire
  -- memory port
  | transferStart
  | transferEnd (rx : List Byte) (holds : Half) (verified : Bool)
  | windowStore (offset : BitVec 28) (data : List Byte)
  | windowRead (offset : BitVec 28)
  | writeBufferFlush
  | statusPoll
  | operationTimeout
  | streamFetch (n : AxisId)
  | fetchFail (n : AxisId)
  -- firmware and pair
  | swapPause
  | swapHandover
  | swapTimeout
  | trialTimeout
  | heartbeatSend
  | heartbeatReceive (boot : BitVec 4) (class4 : Bool) (tick : Half) (axes : Vector AxisReport 24)
  | heartbeatIntervalEnd (silent : BitVec 6)
  | mirroredSetReceive (layout : Half) (records : List Record)
  -- feedback, emulation, machine inputs
  | fbTransition (n : FbId) (a b z : Bool) (clock : Word)
  | indexEvent (n : FbId)
  | serialWordRequest (n : FbId)
  | serialWordEnd (n : FbId) (bits : BitVec 64)
  | serialWordTimeout (n : FbId)
  | fbStandstill (n : FbId)
  | emulatorStep (at_ : EmuAt)
  | stepEdge (n : AxisId) (rising dirHigh fast : Bool)
  | gpioEdge (p : PinId) (level : Bool)
  | comparePulseStart (p : PinId)
  | comparePulseEnd (p : PinId)
  -- auxiliary converters and counters
  | auxTimerTick
  | auxConversionStart
  | auxConversionDone (code0 code1 : Half)
  | sampleIntervalExpire (user : Bool) (addr enc : Word) (latency : Word) (stamp : Word)
  | bandwidthWindowEnd
  -- remaining host-link steps and late rows of the table
  | writeLands (page : Byte)
  | overrunRead (slot : Slot) (sent : Sent)
  | privilegedIndexRead (index : BitVec 7)
  | auxPwmSync (b : BankId) (centre : Bool)
  | handOverReceive (values : List Record) (axes : Vector HandedAxis 24)
  | storeComplete (verified : Bool)
  | dischargeReaches60V
  | pwmClockReturn (b : BankId)
  | gateSupplyRecover (b : BankId) (leg : Option (LegId × Bool))
  deriving DecidableEq, Repr

end Sys2Proof
end

