-- ==== Sys2Proof/WellFormed.lean ====
section
/-! DEFINITION. Which commands are well formed: operands that the outside could supply. -/
namespace Sys2Proof

/-- A register index of an ordinary or privileged page: every code but that of `PAGE` (R54, R60). -/
def Slot.ok (s : Slot) : Bool := decide (s.index ≠ 0x7f)

/-- A report carries a 48-bit position and a state code of R178 (R534). -/
def AxisReport.ok (r : AxisReport) : Bool :=
  decide (-140737488355328 ≤ r.pos ∧ r.pos ≤ 140737488355327) && decide (r.state.toNat ≤ 5)

/-- An image check names a check of R521, or none. -/
def ImageCheck.ok (c : ImageCheck) : Bool := decide (c.cause.toNat ≤ 6)

/-- Whether the operands of a command are ones that its step can meet. -/
def Instr.wf : Instr → Bool
  | .hostWrite slot _ _ => slot.ok
  | .wideLowWrite slot _ => slot.ok
  | .wideHighWrite slot _ => slot.ok
  | .sframeLowHalfRead slot _ => slot.ok && decide (slot.index.toNat % 2 = 0)
  | .faultAcknowledge slot _ => slot.ok
  | .frxWrite slot _ => slot.ok
  | .overrunRead slot _ => decide (0x7e < slot.index.toNat + slot.nth)
  | .starterBoot a b e => a.ok && b.ok && e.ok
  | .fwVerify _ c _ => c.ok
  | .heartbeatReceive boot _ _ axes => decide (boot.toNat ≤ 3) && axes.toList.all AxisReport.ok
  | .handOverReceive _ axes => axes.toList.all fun a => a.report.ok
  | .windowStore offset data =>
    decide (data ≠ []) && decide (data.length ≤ 8) && decide (offset.toNat + data.length ≤ 268435456)
  | .transferEnd rx _ _ => decide (rx.length ≤ 4096)
  | .serialWordEnd _ _ => true
  | .auxPwmSync b _ => decide (b.val < 6)
  | .safeInputAssert _ b => decide (b.val < 6)
  | .safeInputRelease _ b => decide (b.val < 6)
  | .stepEdge n _ _ _ => decide (n.val < 24)
  | _ => true

end Sys2Proof
end

