-- ==== Sys2Proof/Config.lean ====
section
/-! DEFINITION. What the implementation fixes and the spec does not state: free values without a body. -/
namespace Sys2Proof.Config

/-- Device number, unique to each node and fixed at manufacture (R145; log 2). -/
opaque deviceNumber : BitVec 64
/-- Starter version of IDENTIFY (R145; log 2). -/
opaque starterVersion : BitVec 16
/-- Record layout version of the running firmware (R512, R515; log 3). -/
opaque firmwareLayout : BitVec 16
/-- The values that the spec leaves open: the i-th free word (log 4). -/
opaque freeWord : Nat → Word
/-- Conversion of a stored value to the layout of newer firmware (R515 "converted by the firmware"; log 3). -/
opaque convertValue : BitVec 16 → Nat → Word → Word

/-- Control word of D(k): R28 names its fields and gives them no bits (log 67). Arguments: apply flag, service request,
safe-level request, resume flag, injection enables. -/
opaque controlWord : Bool → BitVec 2 → Bool → Bool → BitVec 4 → Word
/-- First word of a register-operation slot: R28 names address and operation and gives them no bits (log 67). Arguments:
kind of operation, address. -/
opaque slotWord : Nat → Nat → Word
/-- Bank status word of U(k): R29 gives it no bits (log 67). Arguments: `BLSTAT`, `PWMSTAT` and `SAFELAT` as the bank
holds them. -/
opaque statusWord : Word → Word → Word → Word

end Sys2Proof.Config
end

