-- ==== Sys2Proof/Machine/State.lean ====
section
/-! DEFINITION. The state of one node and of its banks, every piece the spec names, as plain data, and the state
right after reset. Structure defaults are the reset values; a default the spec does not give is named in log 5. -/
namespace Sys2Proof.Machine

/-! ## The part (R2) -/

/-- The four variants of R2. -/
inductive Part where
  | g8 | g16 | g24 | g24t
  deriving DecidableEq, Repr

/-- Variant code of R2 and R3. -/
def Part.code : Part → Byte
  | .g8 => 0x01
  | .g16 => 0x02
  | .g24 => 0x03
  | .g24t => 0x04

/-- Banks per node (R2). -/
def Part.nBanks : Part → Nat
  | .g8 => 2
  | .g16 => 4
  | .g24 => 6
  | .g24t => 6

/-- OC-G8 and OC-G16 retry gate faults automatically; the others re-arm (R6). -/
def Part.retries : Part → Bool
  | .g8 => true
  | .g16 => true
  | .g24 => false
  | .g24t => false

/-! ## Faults (16_faults.md) -/

/-- The fault blocks of R464. -/
inductive BlockId where
  | node
  | hostLink
  | mailboxEngine
  | kiln
  | entry
  | memPort
  | nvStore
  | aux
  | fb (n : FbId)
  | emu (n : EmuId)
  | bank (b : BankId)
  | conv (b : BankId)
  | axis (n : AxisId)
  | phase (n : AxisId) (phB : Bool)
  | stream (n : AxisId)
  deriving DecidableEq, Repr

/-- Place of a block's registers in `State.blocks`. -/
def BlockId.idx : BlockId → Fin 236
  | .node => 0
  | .hostLink => 1
  | .mailboxEngine => 2
  | .kiln => 3
  | .entry => 4
  | .memPort => 5
  | .nvStore => 6
  | .aux => 7
  | .fb n => ⟨8 + n.val, by omega⟩
  | .emu n => ⟨16 + n.val, by omega⟩
  | .bank b => ⟨20 + b.val, by omega⟩
  | .conv b => ⟨32 + b.val, by omega⟩
  | .axis n => ⟨44 + n.val, by omega⟩
  | .phase n false => ⟨92 + n.val, by omega⟩
  | .phase n true => ⟨140 + n.val, by omega⟩
  | .stream n => ⟨188 + n.val, by omega⟩

/-- Kinds of fault block, which fix the source table of R484. -/
inductive BlockKind where
  | node | hostLink | mailboxEngine | kiln | entry | memPort | nvStore | aux | fb | emu | bank | conv | axis | phase
  | stream
  deriving DecidableEq, Repr

/-- Kind of a block. -/
def BlockId.kind : BlockId → BlockKind
  | .node => .node
  | .hostLink => .hostLink
  | .mailboxEngine => .mailboxEngine
  | .kiln => .kiln
  | .entry => .entry
  | .memPort => .memPort
  | .nvStore => .nvStore
  | .aux => .aux
  | .fb _ => .fb
  | .emu _ => .emu
  | .bank _ => .bank
  | .conv _ => .conv
  | .axis _ => .axis
  | .phase _ _ => .phase
  | .stream _ => .stream

/-- The sources of a block: status bit and class (R484, R443; PARTLOST and TAKEOVER exist on OC-G24T only). -/
def BlockKind.sources (p : Part) : BlockKind → List (Nat × Nat)
  | .node => if p = .g24t then [(3, 1), (2, 2), (1, 2), (0, 3)] else [(1, 2), (0, 3)]
  | .hostLink => [(1, 0), (0, 0)]
  | .mailboxEngine => [(0, 0)]
  | .kiln => [(8, 2), (7, 3), (6, 2), (5, 3), (4, 3), (3, 2), (2, 1), (1, 0), (0, 1)]
  | .entry => [(16, 1), (15, 0), (14, 1), (13, 1), (12, 1), (11, 2), (10, 2), (9, 1), (8, 1), (7, 1), (6, 1), (5, 2), (4, 2), (3, 1), (2, 2),
      (1, 1), (0, 2)]
  | .memPort => [(1, 1), (0, 1)]
  | .nvStore => [(1, 2), (0, 2)]
  | .aux => [(7, 1), (6, 1), (5, 1), (4, 1), (2, 0), (1, 1)]
  | .fb => [(5, 1), (4, 1), (3, 1), (2, 1), (1, 1), (0, 0)]
  | .emu => [(0, 1)]
  | .bank => [(31, 2), (14, 2), (13, 1), (12, 0), (10, 2), (9, 2), (8, 2), (5, 3), (4, 1), (3, 1), (2, 0), (1, 0), (0, 0)]
  | .conv => [(7, 1), (6, 1), (5, 1), (4, 1), (2, 0), (1, 1)]
  | .axis => [(31, 2), (30, 2), (29, 2), (28, 2), (27, 2), (26, 2), (25, 1), (23, 1), (22, 1), (21, 1), (20, 0), (19, 0),
      (18, 0), (15, 0), (14, 1), (13, 0), (2, 1), (1, 1), (0, 1)]
  | .phase => [(3, 2), (2, 2), (1, 1), (0, 0)]
  | .stream => [(7, 1), (6, 1), (5, 1), (4, 1), (3, 1), (2, 0), (1, 0), (0, 0)]

/-- Default reaction code of a class (R466). -/
def defaultCode : Nat → Nat
  | 0 => 1
  | 1 => 2
  | 2 => 2
  | 3 => 3
  | _ => 0

/-- Highest code of a class (R466, R467). -/
def maxCode : Nat → Nat
  | 0 => 1
  | 1 => 2
  | 2 => 4
  | 3 => 5
  | _ => 0

/-- The bits of a source list, as a word. -/
def sourceMask (l : List (Nat × Nat)) : Word := l.foldl (fun m p => m ||| (1#32 <<< p.1)) 0

/-- The default codes of group g of a source list (R465, R466). -/
def groupDefault (l : List (Nat × Nat)) (g : Nat) : BitVec 24 :=
  l.foldl (fun m p => if p.1 / 8 = g then m ||| (BitVec.ofNat 24 (defaultCode p.2) <<< (3 * (p.1 % 8))) else m) 0

/-- The registers of one fault block in the common layout of R465; `status` is the owning chapter's status
register, `line` the pending classes that were raised with IRQ (R478), `recd` the class recorded for each status bit
of a stream block, 7 where none is (R470). -/
structure FBlock where
  status : Word
  fen : Word
  codes : Vector (BitVec 24) 4
  grp : BitVec 2
  escnt : Byte
  c4src : Bool
  pend : BitVec 4
  line : BitVec 4
  recd : Vector (BitVec 3) 8
  deriving DecidableEq, Repr

/-- A fault block at reset (R465). -/
def FBlock.init (l : List (Nat × Nat)) : FBlock where
  status := 0
  fen := sourceMask l
  codes := #v[groupDefault l 0, groupDefault l 1, groupDefault l 2, groupDefault l 3]
  grp := 0
  escnt := 0
  c4src := false
  pend := 0
  line := 0
  recd := Vector.replicate 8 7

/-- All blocks at reset. -/
def blocksInit (p : Part) : Vector FBlock 236 :=
  Vector.ofFn fun i =>
    FBlock.init <| (BlockKind.sources p) <|
      if i.val = 0 then .node else if i.val = 1 then .hostLink else if i.val = 2 then .mailboxEngine
      else if i.val = 3 then .kiln else if i.val = 4 then .entry else if i.val = 5 then .memPort
      else if i.val = 6 then .nvStore else if i.val = 7 then .aux else if i.val < 16 then .fb
      else if i.val < 20 then .emu else if i.val < 32 then .bank else if i.val < 44 then .conv
      else if i.val < 92 then .axis else if i.val < 188 then .phase else .stream

/-- The node's interrupt, nERR and fault-log registers (R478 to R482). `minRun` says that the minimum time of R480
runs, since `minT` units of 50 µs; `log` holds the entries oldest first, `nmiHeld` the NMI of R476, `blockResets` the blocks whose block-reset
reaction is due (R474), `nodeReset` a node reset reaction that is due (R475). -/
structure FaultNode where
  ltgt : Byte := 0
  lcvg : Bool := false
  lbit : BitVec 5 := 0
  lcls : BitVec 3 := 0
  lesc : Bool := false
  class4 : Bool := false
  ie : Vector Word 6 := #v[0x00ffffff, 0x00ffffff, 0x00ffffff, 0x00ffffff, 0x0fff3f3f, 0x000000ff]
  nerrOn : Bool := false
  minRun : Bool := false
  minT : Nat := 0
  relPend : Bool := false
  log : List (Word × Word) := []
  lost : Byte := 0
  nmiDue : Bool := false
  nmiHeld : Bool := false
  blockResets : List BlockId := []
  nodeReset : Bool := false
  deriving DecidableEq, Repr

/-! ## Host link (02_host_link.md, 03_register_behaviour.md) -/

/-- An accepted write that has not landed: page, native index, data, and the bits it carries (a half under
S-framing, R77; all bits otherwise). -/
structure Posted where
  page : Byte
  index : Nat
  data : Word
  mask : Word
  deriving DecidableEq, Repr

/-- Host-link state (R60 to R77, R85, R86, R97, R98). `dlanesF`, `clanesF` and `sframeF` are the settings in force in
the present transaction (R74); `wres` the two bits of WRES; `latch` the high half of R77; `shadow` and `hold` the
pair shadows and write holding registers, keyed by page and index; `statusOut`, `wordsOut` what the last read sent
on the lanes, oldest first; `setUp` that the Starter has set up the fabric (R65); `winRaised` that this transaction has raised
WINCLOSED (R69). -/
structure Link where
  page : Byte := 0
  dlanes : BitVec 2 := 0
  clanes : BitVec 2 := 0
  dlanesF : BitVec 2 := 0
  clanesF : BitVec 2 := 0
  cmptpin : Bool := false
  sframe : Bool := false
  sframeF : Bool := false
  partcnt : Byte := 0
  rejcnt : Byte := 0
  rej : Bool := false
  wres : BitVec 2 := 0
  ovrun : Bool := false
  winerr : Bool := false
  part : Bool := false
  landed : Half := 0
  posted : List Posted := []
  latch : BitVec 16 := 0
  shadow : List (Nat × Word) := []
  hold : List (Nat × Word) := []
  setUp : Bool := false
  statusOut : Option Byte := none
  wordsOut : List Word := []
  winRaised : Bool := false
  deriving DecidableEq, Repr

/-! ## Mailboxes (04_mailboxes_and_ordering.md) -/

/-- What a taken command waits for. `bank` counts its register operations not yet acknowledged and holds the words
read so far; the other reasons name the event that completes the command. -/
inductive Wait where
  | bank (b : BankId) (got : List Word)
  | tableDefault (b : BankId)
  | commit (all : Bool)
  | store
  | service (b : BankId) (action : BitVec 2)
  | safeForce (left : List BankId) (reached : Word)
  | safeRelease (b : BankId)
  | swapLeg (b : BankId)
  | resetPend
  | xfer
  | prog
  | fetch
  | fwSwap
  | cal (b : BankId)
  | handover
  | xbuf
  deriving DecidableEq, Repr

/-- Life of a command in the engine: none, rung and not taken, taken and waiting, ended during a debug halt with the state
and the words that it shows when the processor runs again (R120). -/
inductive MbPhase where
  | idle
  | rung
  | waiting (w : Wait)
  | ended (st : BitVec 2) (ws : List Word)
  deriving DecidableEq, Repr

/-- One mailbox (R107 to R113). `copy` is the engine's copy of the rung command, `ring` its place in ring order. -/
structure Mailbox where
  cmd : Vector Word 16 := Vector.replicate 16 0
  rsp : Vector Word 16 := Vector.replicate 16 0
  ien : Bool := false
  refused : Bool := false
  cirq : Bool := false
  ringcnt : Byte := 0
  refcnt : Byte := 0
  copy : Vector Word 16 := Vector.replicate 16 0
  ring : Nat := 0
  phase : MbPhase := .idle
  deriving DecidableEq, Repr

/-! ## Proofs (03_register_behaviour.md) -/

/-- States of a Proof (R102). -/
inductive ProofState where
  | open_ | sealed | loaded
  deriving DecidableEq, Repr

/-- One Proof or half (R105, R106). `told` the class in which its mismatch was raised, none where none was or its class has
been acknowledged since (R104). -/
structure Proof where
  state : ProofState := .open_
  ref : Word := 0
  computed : Word := 0
  mis : Bool := false
  miscnt : Byte := 0
  told : Option (BitVec 3) := none
  deriving DecidableEq, Repr

/-- Proofs of the node, banks and axis halves; `commit` the targets of a COMMIT in progress with its mailbox and
whether its scan has started, whether a covered write has landed since, and the banks whose results it still waits for
(R103). -/
structure CommitRun where
  mb : MbId
  node : Bool
  banks : List BankId
  axes : List AxisId
  started : Bool
  changed : Bool
  await : List BankId
  deriving DecidableEq, Repr

/-! ## Motion engines (06_motion_engine.md) -/

/-- States of R178. -/
inductive AxState where
  | off | standby | ramp | stopping | follow | frozen
  deriving DecidableEq, Repr

/-- Why an axis is STOPPING (R174, R179). -/
inductive StopCause where
  | command | enableLoss | fault
  deriving DecidableEq, Repr

/-- One phase of a planned profile: duration in units of 50 µs / 2^20, and position (2^-32 microstep), velocity
(2^-32 microstep per second), acceleration (2^-32 microstep per second squared) at its start, and its jerk. -/
structure Phase where
  dur : Nat
  x : Int
  v : Int
  a : Int
  j : Int
  deriving DecidableEq, Repr

/-- What a move goes to: a target position or a velocity (R172). -/
inductive Goal where
  | target (x : Int)
  | velocity (v : Int)
  deriving DecidableEq, Repr

/-- The limits governing a move: VMAX in Q26.6 codes, ACC, DEC, JERK as configured or overridden (R163, R172). -/
structure Limits where
  vmax : Nat
  acc : Nat
  dec : Nat
  jerk : Nat
  deriving DecidableEq, Repr

/-- A move: goal, and overrides in the order VMAX, ACC, DEC, JERK, 0 for none (R172). -/
structure Move where
  goal : Goal
  ovr : Limits
  deriving DecidableEq, Repr

/-- A landed motion command that applies at the next tick edge (R175). -/
inductive Staged where
  | move (m : Move)
  | stop (quick : Bool)
  deriving DecidableEq, Repr

/-- Motion engine of one axis (R158 to R193). Position in 2^-32 microstep; `plan` the phases still to run with `t`
units elapsed in the first; `side` the side of the target the move came from (R168); `staged`, `armed`,
`trig`, `setPos` what the next tick edge takes; `venNext` the landed virtual enable bit, `ven` and
`pin` the levels of the last edge; `edge` a rising enable edge since entry into OFF; `stopReq` and `freezeReq` reactions due at
the next tick edge (R285, R286); `offReq` a de-energising reaction. -/
structure Engine where
  st : AxState := .off
  pos : Int := 0
  vel : Int := 0
  acc : Int := 0
  plan : List Phase := []
  t : Nat := 0
  move : Option Move := none
  limits : Limits := ⟨0, 0, 0, 0⟩
  target : Int := 0
  side : Int := 0
  velmv : Bool := false
  attgt : Bool := false
  vclamp : Bool := false
  slsat : Bool := false
  outside : Bool := false
  wrapped : Bool := false
  tnone : Bool := false
  prej : Bool := false
  posunk : Bool := false
  vend : Int := 0
  restAt : Option Int := none
  armShown : Bool := false
  limWrite : Bool := false
  cfgWrite : Bool := false
  cause : StopCause := .command
  quick : Bool := false
  staged : Option Staged := none
  armed : Option Move := none
  trig : Bool := false
  setPos : Option Int := none
  modeWrite : Bool := false
  venNext : Bool := false
  ven : Bool := false
  pin : Bool := false
  en : Bool := false
  edge : Bool := false
  rose : Bool := false
  stopReq : Option Bool := none
  freezeReq : Bool := false
  offReq : Bool := false
  prevPos : Int := 0
  deriving DecidableEq, Repr

/-- Position compare of one axis (R187 to R191). `armWrite` an arming write not yet effective. -/
structure Compare where
  val : Int := 0
  dir : BitVec 2 := 0
  arm : Bool := false
  int : Word := 0
  firecnt : Half := 0
  skip : Bool := false
  behind : Bool := false
  fired : Bool := false
  armWrite : Bool := false
  active : Bool := false
  deriving DecidableEq, Repr

/-! ## Followers and streams (07_followers_and_streams.md) -/

/-- The follow path and the step/direction input of one axis (R194 to R201, R216, R217). `s`, `p0` in 2^-32
microstep, `s0` in the source's own unit; `hist` the accumulator samples of the last ticks, newest first;
`gAcc`, `gLast` the accumulated feedback coordinate and its last count. -/
structure Follow where
  p0 : Int := 0
  s0 : Int := 0
  s : Int := 0
  lag : Int := 0
  lagOver : Bool := false
  sdacc : Int := 0
  sdpulses : Word := 0
  hist : List Int := []
  gAcc : Int := 0
  gLast : Word := 0
  gBad : Bool := false
  deriving DecidableEq, Repr

/-- A position-time point (R202). -/
structure Point where
  off : Int
  dur : Nat
  last : Bool
  deriving DecidableEq, Repr

/-- Open stream states of R210. -/
inductive SState where
  | open_ | pending | run | done | underrun | stopped | group
  deriving DecidableEq, Repr

/-- A memory feed: start address, point count, next address, points not fetched, the window base as it was opened,
whether a fetch is requested or runs, and whether it must be tried again at a tick edge (R208, R209). -/
structure Feed where
  addr : Nat
  count : Nat
  next : Nat
  left : Nat
  base : Nat
  busy : Bool
  retry : Bool
  deriving DecidableEq, Repr

/-- A braking source (R212): its profile phases, the position at which it begins, and the elapsed time. -/
structure Brake where
  plan : List Phase
  x : Int
  t : Nat
  deriving DecidableEq, Repr

/-- Stream of one axis (R202 to R215). `st` is `none` while closed; `playOut` while a closed stream plays out or
brakes after it (R157); `u`, `uStart` stream time and the time at which the head point began; `x0` the offset of the
point before the head; `group` the start group's number, 0 for none; `startAt` the start tick; `groupDue` that GROUP
is entered at the next edge. -/
structure Stream where
  st : Option SState := none
  window : Option WinId := none
  feed : Option Feed := none
  playOut : Bool := false
  fifo : List Point := []
  half : Option Word := none
  refd : Bool := false
  origin : Int := 0
  x0 : Int := 0
  u : Nat := 0
  uStart : Nat := 0
  played : Nat := 0
  group : Nat := 0
  startAt : Nat := 0
  groupDue : Bool := false
  vseg : Int := 0
  brake : Option Brake := none
  hold : Int := 0
  deriving DecidableEq, Repr

/-- The live stream values of an axis as its last tick edge left them (R219): `SDACC`, `SDPULSES`, `STRSTAT`, `SPLAYED`,
`SLAG`, `STIME` and the two words of `SNEXT`. -/
structure StreamLive where
  sdacc : Int := 0
  pulses : Word := 0
  status : Word := 0
  played : Nat := 0
  lag : Int := 0
  time : Nat := 0
  next : Nat := 0
  left : Nat := 0
  deriving DecidableEq, Repr

/-! ## Current (08_microsteps_and_current.md) -/

/-- Node side of an axis's current (R234 to R246). `sEff`, `bEff` in twentieths of a code; `holdT` time in STANDBY in
units of 50 µs; `acct` the I²t account in 10^-7 of its unit; `fall` the code from which the cap falls and the units
since (R245); `i2tDue` that the account reached 0 at the last edge; `words` the page values of the last refresh
(R257), `holdDone` that the hold delay has expired. -/
structure AxCurrent where
  sEff : Int := 0
  bEff : Int := 0
  imag : Nat := 0
  loadPermit : Bool := false
  holdT : Nat := 0
  holdDone : Bool := false
  acct : Nat := 3600000000000
  lock : Bool := false
  derating : Bool := false
  fallFrom : Nat := 0
  fallT : Nat := 0
  i2tDue : Bool := false
  bscale : Bool := false
  words : Vector Word 4 := #v[0, 0, 0, 0x8000]
  harm : Vector (BitVec 16) 4 := Vector.replicate 4 0
  deriving DecidableEq, Repr

/-- One phase loop in its bank (R250 to R254, R258). `integ` in units of 1/(122,880,000,000 * 524,280) V; run lengths
of saturation, open phase and tracking error with the flags that they have been raised. -/
structure PhaseLoop where
  integ : Int := 0
  iref : Int := 0
  imeas : Int := 0
  volts : Int := 0
  delta : Int := 0
  code1 : Nat := 0
  code2 : Nat := 0
  satRun : Nat := 0
  satUp : Bool := false
  openRun : Nat := 0
  openUp : Bool := false
  trkRun : Nat := 0
  trkUp : Bool := false
  flt : BitVec 4 := 0
  deriving DecidableEq, Repr

/-! ## Observer and homing (09_load_angle_observer.md) -/

/-- Observer modes of R270. -/
inductive OMode where
  | blind | inject | emf
  deriving DecidableEq, Repr

/-- Bank side of one axis's observer (R268 to R284, R297) with its load-adaptive factor and harmonic coefficients.
`lam` is λu; `measured` that λu has been formed since BLIND; `seed` θ − θr of the last measurement, wrapped (R274);
`injecting` that the tick injects, in INJECT or BLIND under rows 5 or 6 of R271;
`start` the start count, `skipRun` successive skipped injection periods; `injPos` the sign of the next pattern;
`pattern` that the period running carries the pattern; `vPrev` the velocity feed-forward of the tick before; `sums`
the sums of R280 (mean, 3s, 3c, 5s, 5c) and `cnt` their periods; `rho` the components of the last tick. -/
structure ObsBank where
  mode : OMode := .blind
  bcause : BitVec 3 := 1
  settle : Bool := false
  start : Nat := 0
  skipRun : Nat := 0
  injPos : Bool := true
  injecting : Bool := false
  pattern : Bool := false
  rang : BitVec 16 := 0
  lam : Int := 0
  measured : Bool := false
  seed : Int := 0
  bemf : Nat := 0
  emfA : Int := 0
  emfB : Int := 0
  lastA : Int := 0
  lastB : Int := 0
  tq : Int := 0
  scount : Nat := 0
  lastQ : BitVec 2 := 0
  vPrev : Word := 0
  stallEv : Bool := false
  slipEv : Bool := false
  slipUp : Bool := false
  injsk : Bool := false
  larsatEv : Bool := false
  laract : Bool := false
  retard : Nat := 0
  latchAngle : Word := 0
  latchLam : Int := 0
  lacF : Nat := 32768
  lacBelow : Bool := false
  harm : Vector (BitVec 16) 4 := Vector.replicate 4 0
  harmUse : Vector (BitVec 16) 4 := Vector.replicate 4 0
  learnOk : Bool := false
  hlim : BitVec 4 := 0
  sums : Vector Int 5 := Vector.replicate 5 0
  cnt : Nat := 0
  rho : Vector (BitVec 16) 4 := Vector.replicate 4 0
  deriving DecidableEq, Repr

/-- Homing states of R292. -/
inductive HState where
  | idle | seek | contact | backoff | done | fail
  deriving DecidableEq, Repr

/-- Node side of an axis's observer and homing (R281, R285, R287, R290 to R296). `la`, `ra`, `tqw` the last record;
`prevScount` SCOUNT of the record before; `stallDue`, `slipDue` for the next tick edge; `blindRun` in units of 50 µs;
`sent` the positions of the last downstream packets, newest first; `hpend` a HOME that applies at the next edge;
`hcruise` ticks since segment 4 began; `hwait` ticks in CONTACT; `hread` the STLATCH words read; `hup` that the seek runs in
the positive direction; `hgo` that the next edge is the BACKOFF edge. -/
structure ObsNode where
  la : Word := 0
  ra : Word := 0x10
  tqw : Word := 0
  prevScount : Nat := 0
  stallDue : Bool := false
  slipDue : Bool := false
  blindRun : Nat := 0
  blindUp : Bool := false
  sent : List Int := []
  hpend : Option Bool := none
  hstate : HState := .idle
  hcause : BitVec 4 := 0
  probe : Bool := false
  hstart : Int := 0
  hcruise : Option Nat := none
  harmed : Bool := false
  hfrozen : Int := 0
  hanchor : Int := 0
  hwait : Nat := 0
  hread : Option (Word × Word) := none
  hup : Bool := false
  hgo : Bool := false
  homepos : Int := 0
  deriving DecidableEq, Repr

/-! ## PWM and safe states (10_pwm.md) -/

/-- Values of the PERIOD boundary in use by a bank (R316, R321). -/
structure PwmUse where
  period : Nat := 12000
  drv : Word := 0
  filt : Vector Word 16 := Vector.replicate 16 0x30
  duty : Vector Word 16 := Vector.replicate 16 0
  deriving DecidableEq, Repr

/-- A change of the values of the PERIOD boundary under way (R320): periods of the old length still to start, the gap L
after them (0 once it has run), and the new values. -/
structure PwmChange where
  old : Nat
  gap : Nat
  use : PwmUse
  deriving DecidableEq, Repr

/-- PWM time base of a bank (R303 to R311). `pstart` is the start of the present period in PWM clocks from the last
tick edge, `len` its length, `number` the period number, `on` the effective on-time of each leg, `changes` the changes
under way, oldest first, `clampArm` that DUTYCLAMP may be raised since the last BATCH, `started` that a period has
started since entry into RUN, `codeP` the period for which the loop formed its codes, `trg`, `sel` and `injOn` the
trigger settings of the period running and whether an axis injects in it (R375, R377). -/
structure PwmBase where
  use : PwmUse := {}
  pstart : Int := 0
  len : Nat := 12000
  codeP : Nat := 12000
  number : Nat := 0
  started : Bool := false
  bridge : Bool := false
  on : Vector Nat 16 := Vector.replicate 16 0
  changes : List PwmChange := []
  clampArm : Bool := false
  pulseadj : Word := 0
  trg : Vector Word 3 := Vector.replicate 3 0
  sel : Vector Word 4 := Vector.replicate 4 0
  injOn : Bool := false
  deriving DecidableEq, Repr

/-- Safe latch and causes of a bank (R324, R328): bits STOP, FLT, SOFT, HALT, CLK as in SAFELAT; `clkGone` that the
clock monitor finds no clock; `level` the last level forced (true COAST). -/
structure SafeBank where
  lat : BitVec 5 := 0
  clkGone : Bool := false
  coast : Bool := false
  forced : Bool := false
  deriving DecidableEq, Repr

/-! ## Gate drive, legs and spares (11_gate_drive_and_legs.md) -/

/-- Release of an axis: none, or step 1 with the low or the high sides freewheeling (R347, R366). -/
inductive Release where
  | none | lows | highs
  deriving DecidableEq, Repr

/-- Bank side of an axis's legs (R345 to R358). `flt` the bytes of LEGFLT for A1 A2 B1 B2; `uv` for each leg the
undervoltage present, bit 0 high side, bit 1 low side; `held` the legs that stay off in the release; `bankRel` that
the release is of bank scope; `isolLegs` terminals isolated with no spare; `enRel` that the release is the enable-0
freewheel of R436; `step2` that its legs are all off, `rpend` and `waiting` a retry and its wait, of which `waitT` units of 50 µs
in RUN have passed (R357); `energised` that
the axis's switches run; `badWords` its words that fail parity (R99); `cut` for each leg the on-time and the length of the
period in which its switches were last commanded (R346); `cause` the fault that latched the axis (R355). -/
structure LegsBank where
  flt : Vector Byte 4 := Vector.replicate 4 0
  uv : Vector (BitVec 2) 4 := Vector.replicate 4 0
  held : BitVec 4 := 0
  rel : Release := .none
  bankRel : Bool := false
  enRel : Bool := false
  latch : Bool := false
  step2 : Bool := true
  tries : BitVec 3 := 0
  rpend : Bool := false
  waiting : Bool := false
  waitT : Nat := 0
  isolLegs : BitVec 4 := 0
  energised : Bool := false
  badWords : List Nat := []
  cut : Vector (Nat × Nat) 4 := Vector.replicate 4 (0, 1)
  cause : Option (BlockId × Nat) := none
  deriving DecidableEq, Repr

/-- States of a spare (R366). -/
inductive SpareState where
  | idle | inuse | failed
  deriving DecidableEq, Repr

/-- One spare leg (R363, R366): state, swap running, terminal served. -/
structure Spare where
  st : SpareState := .idle
  swp : Bool := false
  leg : LegId := 0
  deriving DecidableEq, Repr

/-- A swap or return under way (R359, R360, R364); `start` the execution of its operation, in PWM clocks from the present
tick edge. -/
structure SwapRun where
  leg : LegId
  second : Bool
  ret : Bool
  byte : Byte
  start : Int
  deriving DecidableEq, Repr

/-- Node side of an axis's legs: a retry due at the next tick edge, the pulse under way, the energised time in units of
50 µs, and the second edge of a retry pulse (R357, R358). -/
structure LegsNode where
  retryDue : Bool := false
  pulse : Bool := false
  energT : Nat := 0
  retryEdge : Bool := false
  deriving DecidableEq, Repr

/-! ## Converters and queues (12_sampling_and_queues.md) -/

/-- A tagged queue (R378, R388 to R394): entries oldest first, `prevOut` the comparators whose previous entry was
outside, `epi` that an overflow episode runs (R394), `dropTick` that this tick and `dropLast` that the last tick had a
dropped trigger or a miss. -/
structure Queue where
  en : Bool := false
  fifo : List Word := []
  ovf : Half := 0
  ovfEv : Bool := false
  lout : BitVec 4 := 0
  prevOut : BitVec 4 := 0
  epi : Bool := false
  dropTick : Bool := false
  dropLast : Bool := false
  deriving DecidableEq, Repr

/-- The auxiliary sequencer (R383 to R387): `waiting` that the slot is armed and waits, `busy` that it converts; `cfgNew`
that a word of AUXCFG landed and its `SEQN` has not applied yet (R387). -/
structure AuxSeq where
  pass : Byte := 0
  slot : Nat := 0
  running : Bool := false
  waiting : Bool := false
  busy : Bool := false
  seqlen : Bool := false
  cfgNew : Bool := false
  deriving DecidableEq, Repr

/-! ## Power entry and keep supply (14_mains_bus_and_energy.md) -/

/-- PESTATE of R443. -/
inductive PEState where
  | off | precharge | ramp | run | refused | discharge
  deriving DecidableEq, Repr

/-- Power entry (R419 to R437, R443). `halves` the last ten half-cycles and `cands` the last twenty candidates, newest
first; `step` of R424; `holdOff` that it waits for ENTRY_RESTART; `chopShort`, `chopLong` the chopper locks; `bleed`
that the chopper finishes a discharge, `paused` that a discharge waits for its account; `dischDue` that a discharge is
to start, `refusing` that it ends in REFUSED; `supplyUp` that the auxiliary converter runs; `returned` that mains has
been good for 100 ms since a loss; `again` that ENTRY_RESTART came before a discharge that was due; `chopT` the time for
which the chopper has been on, in units of 50 µs; `freqAt` the tick edge
after which MAINS_FREQ last came; `drew` that a discharge has drawn on its account since the last update; `palloc` the budget P that the allocation uses since the last
tick edge (R239); `chopHeld` the `CHOPEN` that the entry holds while the node is in reset (R563). -/
structure Entry where
  st : PEState := .off
  cause : BitVec 4 := 0
  vmains : Half := 0
  vauxok : Bool := false
  chopon : Bool := false
  disch : Bool := false
  inlim : Bool := false
  mainsok : Bool := false
  vbus : Half := 0
  cbus : Half := 0
  pin : Half := 0
  pbud : Nat := 3200
  palloc : Nat := 3200
  chopHeld : Bool := false
  dacc : Nat := 400
  ovacc : Nat := 1000
  halves : List Nat := []
  cands : List Nat := []
  low : Bool := false
  high : Bool := false
  pfcOn : Bool := false
  pfcOv : Bool := false
  inrush : Bool := false
  xcap : Bool := false
  step : Nat := 0
  holdOff : Bool := false
  chopShort : Bool := false
  chopLong : Bool := false
  bleed : Bool := false
  paused : Bool := false
  dischDue : Bool := false
  refusing : Bool := false
  supplyUp : Bool := false
  returned : Bool := false
  again : Bool := false
  chopT : Nat := 0
  freqAt : Option Nat := none
  drew : Bool := false
  deriving DecidableEq, Repr

/-- Keep domain and its supply (R48, R439 to R443, R518). `rtc` the low 32 bits of the real-time clock,
`rtcFrac` the part of a count since, in 1/100,000; `wake` the value of the wake comparator (log 77); `ram` the 256 bytes of keep RAM as
cells in canonical form; `okRun` measurements inside the window since the last excursion, in 100 ms; `out` that an
excursion runs, `err` that the thermistor reads open or shorted; `full` that charging has stopped at KVMAX. -/
structure Keep where
  rtc : Word := 0
  rtcFrac : Nat := 0
  wake : Word := 0
  ram : List Host.Cell := []
  vkeep : Half := 0
  kntct : Byte := 0
  kchg : Bool := false
  klost : Bool := false
  kntcok : Bool := false
  out : Bool := false
  err : Bool := false
  okRun : Nat := 100
  full : Bool := false
  deriving DecidableEq, Repr

/-! ## Kiln (15_kiln.md) -/

/-- Kiln side of a bank (R445 to R451): the last four readings of each sensor, newest first, the broken phase sensors,
the excluded substrate, and the time in units of 50 µs for which each difference has exceeded 25 K. `input` is the
next input of the thermal multiplexer (R372). -/
structure KilnBank where
  readings : Vector (List Int) 9 := Vector.replicate 9 []
  broken : Byte := 0
  subx : Bool := false
  beyond : Vector Bool 8 := Vector.replicate 8 false
  overT : Vector Nat 8 := Vector.replicate 8 0
  input : Nat := 0
  deriving DecidableEq, Repr

/-- Kiln on the node (R446, R451 to R462): die readings, cones, the copies of each bank's broken sets. -/
structure Kiln where
  die : List Int := []
  dieBad : Bool := false
  dieOkRun : Nat := 10
  dcone : Nat := 0
  cones : Vector Nat 48 := Vector.replicate 48 0
  ksum : Vector Word 12 := Vector.replicate 12 0
  shown : Vector Word 12 := Vector.replicate 12 0
  broken : Vector Byte 12 := Vector.replicate 12 0
  subx : Vector Bool 12 := Vector.replicate 12 false
  few : Vector Bool 12 := Vector.replicate 12 false
  deriving DecidableEq, Repr

/-! ## Banks and their links (01_node_and_banks.md) -/

/-- States of R37 and R38. -/
inductive BState where
  | unpowered | linking | run | service | orphan | safe
  deriving DecidableEq, Repr

/-- A setpoint record of D(k) (R28). -/
structure Setpoint where
  angle : Word := 0
  cur : Word := 0
  vff : Word := 0
  deriving DecidableEq, Repr

/-- A register operation of a bank (R28, R33). Parameters are named by the key of their first word. -/
inductive RegOp where
  | write (key : Nat) (vals : List Word)
  | read (key n : Nat) (active : Bool)
  | live (ident : Nat) (unit w0 n : Nat)
  | clear (reg : Nat) (mask : Word)
  | rearm (p : Pos) (host : Bool)
  | tries (p : Pos)
  | dropRetry (p : Pos)
  | harm (p : Pos) (h : Vector (BitVec 16) 4)
  | table (p : Pos)
  | safeRelease
  | swap (leg : LegId) (sel : BitVec 2) (ret : Bool)
  | cal
  | kiln (mask : BitVec 9)
  | proof
  | resetBank
  | resetAxis (p : Pos)
  | resetPhase (p : Pos) (phB : Bool)
  deriving DecidableEq, Repr

/-- A register operation queued in the node: its slots still to send, the tick of the packet that carried its last
slot, the mailbox that waits for it (none for the reads of R102, R232 and R257 and the STLATCH read of a homing axis),
its number, that it is sent again under R35, and its slots sent and not yet acknowledged, with the ticks of their
packets. -/
structure OpEntry where
  op : RegOp
  slots : Nat
  sentAt : Option Nat
  mb : Option MbId
  tag : Nat
  re : Bool
  parts : List (Nat × Nat)
  deriving DecidableEq, Repr

/-- What a bank has to tell the node (R29, R34, R330, R353): a fault of a block, a due retry, a finished swap. -/
inductive BankEvent where
  | fault (blk : BlockId) (bit : Nat)
  | axisOff (p : Pos)
  | retryDue (p : Pos)
  | trgDrop
  | swapDone (result : BitVec 2) (byte : Byte)
  | calDone (mA : Half)
  | opRefused (tag : Nat)
  deriving DecidableEq, Repr

/-- Bank registers as an upstream packet reports them and the node mirrors them (R34, R37, R332, R366). -/
structure BankRegs where
  st : BState := .unpowered
  holdover : Bool := false
  lock : Bool := false
  crcdn : Byte := 0
  flt : Word := 0
  pappl : Half := 12000
  forced : BitVec 2 := 0
  spend : Bool := false
  pulseadj : Word := 0
  lat : BitVec 5 := 0
  stoplvl : Bool := false
  fltlvl : Bool := false
  legflt : Vector Word 4 := Vector.replicate 4 0
  arm : Word := 0
  spare : Word := 0
  deriving DecidableEq, Repr

/-- The downstream packet D(k) (R28, R35): tick number modulo 65,536, acknowledge of the last good upstream packet, and
what the words after the header carry. `svc` is the service request, 0 where there is none. -/
structure DPacket where
  tick : Half
  ack : Byte
  sp : Vector Setpoint 4
  batch : Bool
  svc : BitVec 2
  safe : Bool
  resume : Bool
  inj : BitVec 4
  ops : List OpEntry
  deriving DecidableEq, Repr

/-- Read data of an operation: its tag and words. -/
structure Return where
  tag : Nat
  words : List Word
  deriving DecidableEq, Repr

/-- The upstream packet U(k) (R29): tick number modulo 65,536, and the low 8 bits of the tick number of the last
downstream packet whose operations the bank has executed. -/
structure UPacket where
  tick : Half
  ack : Byte
  regs : BankRegs
  ksum : Word
  broken : Byte
  subx : Bool
  events : List BankEvent
  obs : Vector (Word × Word × Word) 4
  returns : List Return
  entries : List Word
  deriving DecidableEq, Repr

/-- One bank. The first fields are the node's: `view` the BSTATE the node reports, `left` that the engines treat it as
having left RUN (R330), `badUp` consecutive packets discarded, `noUp` ticks without a good one, `seen` that this tick
had one, `ops` the operations not yet acknowledged in the order first sent, `upkt` the packet in flight upstream,
`dpkt` the one in flight downstream, `mir` the mirror, `batches` the operation numbers at
which a BATCH landed whose flag has not gone out, `softReq`, `svcReq` requests for the next packet, `renewed` that a
safe-level request goes with every packet (R457, R473), `lastUp` the sequence of the last good upstream packet, `gone`
that the node has declared the link lost, `undelivered` that the bank's configuration is to be resent before RUN (R36),
`missed` the causes of R330 that the bank met UNPOWERED, `harmDue` the axes whose coefficients are to be read (R232),
`sentBatch`, `sentSvc` flags sent and not yet acknowledged with their tick, `resumeDue` the resume flag,
`resumeAt` the tick of the last packet that carried it, `scanPos` the position read next (R257), `reinit` that the
bank's link was lost, `svcRun` a service entry under way. The others are the bank's own: `noDn` ticks without a good
packet, `recv` the good packet of this tick, `sp` the setpoints in use from angle `a0` to `a1`, `tickNo` the tick that
the next upstream packet reports, `lastTrig` the last trigger in PWM clocks from the tick edge, `svc` a service
request received, `releaseDue` that the bank enters RUN at the next period start, `cap` the live values captured at the
last centre, `capT` those at the last centre before the tick edge, `flt` its own fault bits of `BKFLT`. -/
structure Bank where
  view : BState := .unpowered
  left : Bool := false
  crcup : Byte := 0
  lost : Bool := false
  miss : Bool := false
  badUp : Nat := 0
  noUp : Nat := 0
  seen : Bool := false
  ops : List OpEntry := []
  dpkt : Option DPacket := none
  upkt : Option UPacket := none
  mir : BankRegs := {}
  batches : List Nat := []
  softReq : Bool := false
  renewed : Bool := false
  svcReq : BitVec 2 := 0
  sentBatch : Option Nat := none
  sentSvc : Option (Nat × BitVec 2) := none
  sentSoft : Option Nat := none
  resumeDue : Bool := false
  resumeAt : Nat := 0
  queue : Queue := {}
  scanPos : Pos := 0
  harmDue : BitVec 4 := 0
  lastUp : Byte := 0
  gone : Bool := false
  undelivered : Bool := false
  missed : BitVec 5 := 0
  reinit : Bool := false
  svcRun : BitVec 2 := 0
  st : BState := .unpowered
  hold : Bool := false
  ack : Byte := 0
  flt : Word := 0
  badDn : Nat := 0
  noDn : Nat := 0
  crcdn : Byte := 0
  holdover : Bool := false
  lock : Bool := false
  recv : Option DPacket := none
  sp : Vector Setpoint 4 := Vector.replicate 4 {}
  a0 : Vector Word 4 := Vector.replicate 4 0
  a1 : Vector Word 4 := Vector.replicate 4 0
  inj : BitVec 4 := 0
  tickNo : Half := 0
  pwm : PwmBase := {}
  safe : SafeBank := {}
  spares : Vector Spare 2 := Vector.replicate 2 {}
  retired : BitVec 16 := 0
  swap : Option SwapRun := none
  busHi : Bool := false
  railLo : Bool := false
  seq : Byte := 0
  lastTrig : Int := -1000000
  kiln : KilnBank := {}
  svc : BitVec 2 := 0
  cal : Bool := false
  offsets : Vector Half 16 := Vector.replicate 16 0
  events : List BankEvent := []
  returns : List Return := []
  entries : List Word := []
  tableNew : BitVec 4 := 0
  releaseDue : Bool := false
  cap : Vector (Vector Word 4) 4 := Vector.replicate 4 #v[0, 0, 0, 0x8000]
  capT : Vector (Vector Word 4) 4 := Vector.replicate 4 #v[0, 0, 0, 0x8000]
  deriving DecidableEq, Repr

/-! ## Feedback and emulation (13_position_feedback.md) -/

/-- One feedback channel (R396 to R411, R417). `first` that the mode's validity still waits for a first legal state
or good word; `idxRef` the reference index event (track count, direction) and `discarded` that an edge was discarded
since; `periods` the valid step periods newest first in 240 MHz clocks, `skip` how many more periods are discarded,
`stepAt` the clock of the last step, or of the entry into the mode, `runs` that a period began there, `stepped` that `dir`
is that of a step since the entry; `words` the good words for speed (count, clock of the request); `moved` the serial
advance since the latest tick edge, `line` that of the tick before it (R412); `req` that a word runs, `latch` the track count of R402; `qLast` the last good position field; `xref` the
reference O of R405. -/
structure FbChan where
  count : Word := 0
  trk : Word := 0
  valid : Bool := false
  a : Bool := false
  b : Bool := false
  z : Bool := false
  dir : Bool := false
  limev : Bool := false
  atLimit : Bool := false
  still : Bool := false
  idxev : Bool := false
  swfcnt : Byte := 0
  illcnt : Byte := 0
  idxpos : Word := 0
  idxd : Half := 0
  xdev : Half := 0
  idxRef : Option (Word × Bool) := none
  discarded : Bool := false
  periods : List Nat := []
  skip : Nat := 0
  stepAt : Nat := 0
  runs : Bool := false
  stepped : Bool := false
  moved : Int := 0
  line : Int := 0
  words : List (Int × Nat) := []
  req : Bool := false
  reqAt : Nat := 0
  latch : Word := 0
  first : Bool := true
  badUp : Bool := false
  qLast : Word := 0
  xref : Option Int := none
  xmisUp : Bool := false
  swraw : Word := 0
  deriving DecidableEq, Repr

/-- One emulation output (R412 to R415). `e` the emulated count; `s` the source at the latest tick edge, moved on by the
steps of a channel source, `span` its linear movement over the tick, `owed` the movement that an invalid source has not
made, `s0` the origin, all with 32 fraction bits; `stepAt` the clock of the last step; `lagUp` that ELAG has been raised
since the backlog was 0. -/
structure Emu where
  driven : Bool := false
  e : Int := 0
  s : Int := 0
  span : Int := 0
  owed : Int := 0
  s0 : Int := 0
  stepAt : Nat := 0
  lagUp : Bool := false
  deriving DecidableEq, Repr

/-! ## Memory port (17_memory_port.md) -/

/-- A program operation or an erase (R503, R506): external address, data, erase command and size, slot, the mailbox that
runs it, if one does, the polls sent, and the time since its transfer ended in units of 50 µs. -/
structure ProgOp where
  addr : Nat
  data : List Byte
  erase : Option (Byte × BitVec 2)
  slot : BitVec 2
  mb : Option MbId
  polls : Nat
  t : Nat
  deriving DecidableEq, Repr

/-- What a transfer is for (R497); `dead` a fetch whose points are no longer wanted. -/
inductive XKind where
  | fetch (n : AxisId) (points : Nat)
  | fill
  | wren (op : ProgOp)
  | prog (op : ProgOp)
  | poll (slot : BitVec 2)
  | raw (m : MbId) (fmt : Word) (boff xlen : Nat)
  | fw (m : MbId) (at_ len : Nat)
  | dead (bytes : Nat)
  deriving DecidableEq, Repr

/-- A waiting or running transfer: purpose, external address, slot. -/
structure XReq where
  kind : XKind
  addr : Nat
  slot : BitVec 2
  deriving DecidableEq, Repr

/-- A transfer as the port sends it (R487 to R491): the format word with its command byte, the external address, the bytes
of a write, the bits of the data phase, the chip-select pin, the clock divider, the sampling delay and `XCSHI`. -/
structure XFrame where
  fmt : Word
  addr : Nat
  tx : List Byte
  bits : Nat
  pin : Nat
  div : Nat
  sdly : Nat
  cshi : Nat
  deriving DecidableEq, Repr

/-- A MEM_PROG or MEM_ERASE that runs (R505, R506): the next address, the bytes of `XBUF` still to program, those
reported ready, the erase, and whether an operation of it is under way. -/
structure ProgRun where
  mb : MbId
  addr : Nat
  boff : Nat
  left : Nat
  done : Nat
  erase : Option (Byte × BitVec 2)
  active : Bool
  deriving DecidableEq, Repr

/-- The memory port (R486 to R509). `cells` of XBUF in canonical form; `wbuf` the page and bytes of the write buffer;
`busy` the operation of each busy slot with its polls, `lines` the line buffer newest first, `runs` the MEM_PROG and
MEM_ERASE taken, `readWait` the processor reads that wait, `readData` what the last processor read returned, `refused`
that the last operation was refused, `frame` what the running transfer sends, `csHeld` the pins that a transfer in progress holds low. -/
structure MemPort where
  xbuf : List Host.Cell := []
  polls : Byte := 0
  xaddr : Word := 0
  xholds : Word := 0
  cur : Option XReq := none
  waiting : List XReq := []
  busy : Vector (Option ProgOp) 4 := Vector.replicate 4 none
  lines : List (Nat × List Byte) := []
  wpage : Option Nat := none
  wbuf : List Host.Cell := []
  runs : List ProgRun := []
  readWait : List Nat := []
  readData : Word := 0
  refused : Bool := false
  frame : Option XFrame := none
  csHeld : BitVec 16 := 0
  deriving DecidableEq, Repr

/-! ## Store, firmware, position log, pair (18_store_update_service.md) -/

/-- A configuration set (R512): blank, or a header whose CRCs match or not and its records. -/
structure ConfigSet where
  blank : Bool := true
  ok : Bool := false
  seq : Word := 0
  layout : Half := 0
  records : List Record := []
  deriving DecidableEq, Repr

/-- A STORE under way: its mailbox and the set it writes (R514). -/
structure StoreRun where
  mb : MbId
  set : ConfigSet
  deriving DecidableEq, Repr

/-- States of a firmware slot (R522). -/
inductive SlotSt where
  | empty | loading | valid
  deriving DecidableEq, Repr

/-- One firmware slot: state, recorded hash, declared length, bytes as cells in canonical form. -/
structure FwSlot where
  st : SlotSt := .empty
  hash : BitVec 256 := 0
  len : Nat := 0
  bytes : List Host.Cell := []
  deriving DecidableEq, Repr

/-- Running source of FW_INFO (R545). -/
inductive FwSrc where
  | slotA | slotB | ext | none
  deriving DecidableEq, Repr

/-- A live swap (R526, R527): the new slot, whether it reverts a trial, and the record it restores on failure. -/
structure FwSwap where
  slot : Bool
  revert : Bool
  oldActive : Bool
  oldTrial : Option Bool
  deriving DecidableEq, Repr

/-- One entry of the position log ring (R516). -/
structure RingEntry where
  seq : Word
  axis : BitVec 5
  kind : BitVec 2
  posunk : Bool
  pos : BitVec 48
  rtc : Word
  deriving DecidableEq, Repr

/-- NV store, boot record, firmware and ring. `ring` newest first, `ringDue` the entries to be written, oldest first;
`gapPend` GAPPEND; `loading` the slot that FW_WRITE and
FW_FETCH fill; `chosen` the image that the Starter has verified; `restored` that positions have been restored (R518); `trialT` the units of 50 µs since the running image
began, which a trial counts (R529). -/
structure Nv where
  nstores : Half := 0
  setOk : Bool := false
  setNo : Bool := false
  sets : Vector ConfigSet 2 := Vector.replicate 2 {}
  stores : List StoreRun := []
  active : Bool := false
  slots : Vector FwSlot 2 := Vector.replicate 2 {}
  trial : Option Bool := none
  trialTo : Nat := 60
  trialT : Nat := 0
  minroll : Byte := 0
  bootsrc : BitVec 2 := 0
  extaddr : Word := 0
  vcause : BitVec 4 := 0
  trialInfo : BitVec 2 := 0
  loading : Option Bool := none
  src : FwSrc := .none
  version : Word := 0
  rollback : Byte := 0
  chosen : Option FwSrc := none
  swap : Option FwSwap := none
  fuse : Bool := false
  ring : List RingEntry := []
  ringSeqNo : Word := 0
  rhead : BitVec 11 := 0
  rskip : Word := 0
  gapPend : Bool := false
  ringDue : List (AxisId × Bool × Bool × Int) := []
  restored : Bool := false
  deriving DecidableEq, Repr

/-- The pair (R534 to R547). `counted` that the interval has seen a counted heartbeat; `sent` the last heartbeat sent;
`reports` the axes of the last one received; `mirror` the mirrored set, `setSent` the node's own as last sent;
`handing` that the downstream packets are marked hand-over, with the mailbox that waits and whether it returns banks.
-/
structure Pair where
  ptick : Half := 0
  pboot : BitVec 4 := 0
  pclass4 : Bool := false
  palive : Bool := false
  carry : BitVec 2 := 0
  hbmiss : BitVec 2 := 0
  tbanks : BitVec 6 := 0
  counted : Bool := false
  sent : Option (BitVec 4 × Bool × Half × Vector AxisReport 24) := none
  reports : Option (Vector AxisReport 24) := none
  mirror : Option (Half × List Record) := none
  handing : Option (MbId × Bool) := none
  setSent : Option (Half × List Record) := none
  deriving DecidableEq, Repr

/-! ## Performance counters and GPIO (19_performance_counters.md, 20_pins_and_package.md) -/

/-- Counters of R549 to R556: trace words, next record number, dropped records, running counts and results of the 15
ports (host link, memory port, mailbox engine, six downstream, six upstream), windows completed, and that a window
runs, `interval` what the down-counter of R549 was last loaded with while sampling runs. -/
structure Perf where
  fifo : List Word := []
  recno : Byte := 0
  tdrop : Half := 0
  count : Vector Word 15 := Vector.replicate 15 0
  result : Vector Word 15 := Vector.replicate 15 0
  bwseq : Word := 0
  window : Bool := false
  interval : Option Nat := none
  deriving DecidableEq, Repr

/-- A compare pulse that a fire has scheduled (R190): its start in PWM clocks from the last tick edge, its width in PWM
clocks. -/
structure Pulse where
  start : Nat
  width : Nat
  deriving DecidableEq, Repr

/-- GPIO of R569 to R573: filtered levels, output values, the scheduled compare pulses of each pin, the pins in a pulse
and where it ends, in PWM clocks from the last tick edge. -/
structure Gpio where
  lvl : BitVec 16 := 0
  out : BitVec 16 := 0
  due : Vector (List Pulse) 16 := Vector.replicate 16 []
  pulse : BitVec 16 := 0
  ends : Vector Nat 16 := Vector.replicate 16 0
  deriving DecidableEq, Repr


/-! ## The whole state -/

/-- One axis: engine, compare, follower, stream and its live values, node side of current, observer and legs, and the bank's side. -/
structure Axis where
  eng : Engine := {}
  cmp : Compare := {}
  fol : Follow := {}
  str : Stream := {}
  slive : StreamLive := {}
  cur : AxCurrent := {}
  obn : ObsNode := {}
  legn : LegsNode := {}
  loopA : PhaseLoop := {}
  loopB : PhaseLoop := {}
  obs : ObsBank := {}
  legs : LegsBank := {}
  deriving DecidableEq, Repr

/-- Proofs of the node, of every bank, and of both halves of every axis (R100, R105). -/
structure Proofs where
  node : Proof := {}
  bank : Vector Proof 12 := Vector.replicate 12 {}
  axisN : Vector Proof 48 := Vector.replicate 48 {}
  axisB : Vector Proof 48 := Vector.replicate 48 {}
  deriving DecidableEq, Repr

/-- Applied and staged values of the parameters that differ from their defaults, keyed by unit, identifier and word
(R91, R140). -/
structure Params where
  applied : List (Nat × Word) := []
  staged : List (Nat × Word) := []
  deriving DecidableEq, Repr

/-- The state of the node and its banks. `pending` is the queue of waiting commands, first in first out; `free` counts
the free values taken; `batchTick`, `bdrop` are BATCHSTAT; `tick` the tick number; `units` the tick in 50 µs,
`elapsed` the one that ended last; `edgeT` the latest tick edge in 50 µs since the node reset, `clk` the latest clock of
240 MHz since it at which a feedback event came; `ringSeq` the ring order; `groupSeq` numbers start groups; `boot` the BOOT code,
`haltC4` that BOOT 3 is a class 4 halt, `links` that the node sends on its bank links; `refOk` that the reference
clock is present; `nstopLow`, `nfltLow`, `enPins` the machine inputs; `isN1` that the pins name the node N1 (R7). -/
structure State where
  part : Part := .g24t
  isN1 : Bool := false
  pending : List Instr := []
  link : Link := {}
  mbx : Vector Mailbox 8 := Vector.replicate 8 {}
  ringSeq : Nat := 0
  blocks : Vector FBlock 236 := blocksInit .g24t
  fn : FaultNode := {}
  nodeP : Params := {}
  bankP : Params := {}
  proofs : Proofs := {}
  commits : List CommitRun := []
  axes : Vector Axis 48 := Vector.replicate 48 {}
  banks : Vector Bank 12 := Vector.replicate 12 {}
  batchTick : Half := 0
  bdrop : BitVec 12 := 0
  auxq : Queue := {}
  auxs : AuxSeq := {}
  entry : Entry := {}
  keep : Keep := {}
  kiln : Kiln := {}
  tick : Nat := 0
  units : Nat := 1
  elapsed : Nat := 1
  edgeT : Nat := 0
  clk : Nat := 0
  groupSeq : Nat := 0
  opSeq : Nat := 0
  boot : BitVec 4 := 0
  haltC4 : Bool := false
  links : Bool := false
  powered : Bool := true
  refOk : Bool := true
  nstopLow : Bool := false
  nfltLow : BitVec 12 := 0
  enPins : BitVec 48 := 0
  fbs : Vector FbChan 8 := Vector.replicate 8 {}
  emus : Vector Emu 4 := Vector.replicate 4 {}
  mem : MemPort := {}
  nv : Nv := {}
  pair : Pair := {}
  perf : Perf := {}
  gpio : Gpio := {}
  free : Nat := 0
  deriving DecidableEq, Repr

/-- The machine right after reset: every field at its structure default. -/
def State.reset : State := {}

/-! ## Outcomes -/

/-- Faults that end a run of the model. The block stops at no event: every command of the table has an effect, so no
meaning raises one (a value of the type is needed by the interface; safe). -/
inductive Fault where
  /-- Raised by nothing: reserved for a state from which the block cannot go on (safe). -/
  | stuck
  deriving DecidableEq, Repr

/-- Refusals: a command that the model gives no meaning. -/
inductive Refusal where
  /-- Answered by the arm of `exec` of a command that is not modelled, with its mnemonic (safe: nothing is claimed). -/
  | notModelled (mnemonic : String)
  deriving DecidableEq, Repr

end Sys2Proof.Machine
end

