-- ==== Sys2Proof/Machine/Ramp.lean ====
section
/-! DEFINITION. Jerk-limited profiles in exact integer arithmetic (06_motion_engine.md R164 to R170; log 20).
Time unit: 50 µs / 2^20. Positions, velocities and accelerations carry 32 fraction bits. -/
namespace Sys2Proof.Machine

/-- Time units per second. -/
def unitsPerSecond : Nat := 20971520000

/-- Units in 50 µs. -/
def unitsPerTick : Nat := 1048576

/-- Integer square root by bits, `k` result bits. -/
def isqrtBits : Nat → Nat → Nat → Nat
  | 0, _, r => r
  | k + 1, n, r => let r' := r + 2 ^ k
                   isqrtBits k n (if r' * r' ≤ n then r' else r)

/-- Integer square root, floor. -/
def isqrt (n : Nat) : Nat := isqrtBits (n.log2 / 2 + 1) n 0

/-- Quotient rounded to the nearest, halves towards positive infinity; the divisor is positive. -/
def divRound (a : Int) (b : Nat) : Int := (2 * a + b).fdiv (2 * (b : Int))

/-- State of a phase after t units: position, velocity, acceleration. -/
def phaseAt (p : Phase) (t : Nat) : Int × Int × Int :=
  let f := unitsPerSecond
  let t' : Int := t
  (p.x + divRound (t' * (6 * p.v * f * f + 3 * p.a * f * t' + p.j * t' * t')) (6 * f * f * f),
   p.v + divRound (t' * (2 * p.a * f + p.j * t')) (2 * f * f),
   p.a + divRound (t' * p.j) f)

/-- Accelerations within a ramp, in the direction of the change: from `x` to `y` at jerk `j` (positive). -/
structure Leg3 where
  dur : Nat
  a : Int
  j : Int
  deriving DecidableEq, Repr

/-- Duration in units of a change of acceleration by `d` at jerk `j`. -/
def jerkDur (d : Int) (j : Nat) : Nat := (d.natAbs * unitsPerSecond + j / 2) / j

/-- Duration in units of a change of velocity by `dv` at acceleration `a`. -/
def accDur (dv : Int) (a : Nat) : Nat := if a = 0 then 0 else (dv.toNat * unitsPerSecond + a / 2) / a

/-- Velocity gained while the acceleration goes from x to y at jerk ±j (x, y along the direction of change). -/
def jerkGain (x y : Int) (j : Nat) : Int := ((x + y) * ((y - x).natAbs : Int)).fdiv (2 * (j : Int))

/-- Acceleration from x, gaining dv, to the end value z, under the limit l: up to a peak, hold, down to z (R165). -/
def pulse (x z dv : Int) (l : Int) (j : Nat) : List Leg3 :=
  let pk : Int := isqrt ((j * dv + (x * x + z * z) / 2).toNat)
  if pk ≤ l then
    [⟨jerkDur (pk - x) j, x, j⟩, ⟨jerkDur (pk - z) j, pk, -j⟩]
  else
    let used := jerkGain x l j + jerkGain l z j
    [⟨jerkDur (l - x) j, x, if x ≤ l then j else -j⟩, ⟨accDur (dv - used) l.toNat, l, 0⟩, ⟨jerkDur (l - z) j, l, -j⟩]

/-- Through zero speed: from velocity v < 0 with acceleration x ≥ 0 to velocity v1 > 0 with acceleration 0. The speed
falls under `dec` up to zero speed and rises under `acc` from there; the acceleration stays continuous, changes at jerk
j only, and at zero speed lies within `acc` and within what can still fall to 0 by v1 (R164, R165). -/
def throughZero (v x v1 : Int) (acc dec : Int) (j : Nat) : List Leg3 :=
  let pk : Int := min (isqrt ((j * (v1 - v) + x * x / 2).toNat) : Int) dec
  let endable : Int := isqrt ((2 * j * v1).toNat)
  if v1 - (pk * pk).fdiv (2 * (j : Int)) ≤ 0 ∧ endable ≤ acc then pulse x 0 (v1 - v) dec j
  else
    let lim := min endable (min acc dec)
    let rising : Int := isqrt ((x * x - 2 * j * v).toNat)
    if rising ≤ lim then ⟨jerkDur (rising - x) j, x, j⟩ :: pulse rising 0 v1 acc j
    else if lim < x ∧ -v < (x * x - lim * lim).fdiv (2 * (j : Int)) then
      let falling : Int := isqrt ((x * x + 2 * j * v).toNat)
      ⟨jerkDur (falling - x) j, x, -j⟩ :: pulse falling 0 v1 acc j
    else pulse x lim (-v) dec j ++ pulse lim 0 v1 acc j

/-- Ramp from velocity v0 with acceleration x0 to velocity v1 with acceleration 0, all taken along the direction of
change, at jerk j > 0, with limit `acc` where the speed rises and `dec` where it falls (R164, R165, R170). An
acceleration against the direction first falls to 0 at the jerk limit; the velocity that this reaches decides which limit
holds from there on. -/
def rampDir (v0 x0 v1 : Int) (acc dec : Int) (j : Nat) : List Leg3 :=
  let turned : Int := if x0 < 0 then v0 - (x0 * x0).fdiv (2 * (j : Int)) else v0
  if v1 ≤ 0 then pulse x0 0 (v1 - v0) dec j
  else if 0 ≤ turned then pulse x0 0 (v1 - v0) acc j
  else if x0 < 0 then ⟨jerkDur x0 j, x0, j⟩ :: throughZero turned 0 v1 acc dec j
  else throughZero v0 x0 v1 acc dec j

/-- Ramp with no jerk limit: constant deceleration to zero speed where the velocities differ in sign, then constant
acceleration (R166). -/
def rampStep (v0 v1 : Int) (acc dec : Nat) : List Leg3 :=
  if v1 ≤ 0 then [⟨accDur (v1 - v0) dec, dec, 0⟩]
  else if 0 ≤ v0 then [⟨accDur (v1 - v0) acc, acc, 0⟩]
  else [⟨accDur (-v0) dec, dec, 0⟩, ⟨accDur v1 acc, acc, 0⟩]

/-- Lays legs out as phases from position x and velocity v, direction d; the last phase leads to velocity v1. -/
def layOut (d : Int) : List Leg3 → Int → Int → List Phase × Int × Int
  | [], x, v => ([], x, v)
  | l :: r, x, v =>
    let p : Phase := ⟨l.dur, x, v, d * l.a, d * l.j⟩
    let e := phaseAt p l.dur
    let q := layOut d r e.1 e.2.1
    (p :: q.1, q.2.1, q.2.2)

/-- Limits with 32 fraction bits; DEC 0 means ACC (R162). -/
def Limits.accF (l : Limits) : Nat := l.acc * 2 ^ 32
def Limits.decF (l : Limits) : Nat := (if l.dec = 0 then l.acc else l.dec) * 2 ^ 32
def Limits.jerkF (l : Limits) : Nat := l.jerk * 1024 * 2 ^ 32
def Limits.vmaxF (l : Limits) : Nat := l.vmax * 2 ^ 26

/-- Phases from (x, v, a) to velocity v1 at acceleration 0, and the position reached (R164, R165). -/
def rampTo (l : Limits) (x v a v1 : Int) : List Phase × Int :=
  let settle := if l.jerk = 0 then v else v + (a * (a.natAbs : Int)).fdiv (2 * (l.jerkF : Int))
  let d : Int := if v1 < settle then -1 else 1
  if l.jerk = 0 then
    let q := layOut d (rampStep (d * v) (d * v1) l.accF l.decF) x v
    (q.1, q.2.1)
  else
    let q := layOut d (rampDir (d * v) (d * a) (d * v1) l.accF l.decF l.jerkF) x v
    (q.1, q.2.1)

/-- Total duration of phases. -/
def phasesDur (l : List Phase) : Nat := l.foldl (fun n p => n + p.dur) 0

/-- State after t units of a plan that ends in cruise at velocity v1 from position xe. -/
def planAt : List Phase → Int → Int → Nat → Int × Int × Int
  | [], xe, v1, t => (xe + divRound (v1 * t) unitsPerSecond, v1, 0)
  | p :: r, xe, v1, t => if t < p.dur then phaseAt p t else planAt r xe v1 (t - p.dur)

/-- Where the axis comes to rest when it follows the fast plan for t units and then brakes. -/
def restAfter (l : Limits) (fast : List Phase) (xe v1 : Int) (t : Nat) : Int :=
  let s := planAt fast xe v1 t
  (rampTo l s.1 s.2.1 s.2.2 0).2

/-- Bisection for the longest time on the fast plan whose stop does not pass the target, d the direction. -/
def bisectTime (l : Limits) (fast : List Phase) (xe v1 target d : Int) : Nat → Nat → Nat
  | 0, lo => lo
  | k + 1, lo =>
    let mid := lo + 2 ^ k
    bisectTime l fast xe v1 target d k (if d * restAfter l fast xe v1 mid ≤ d * target then mid else lo)

/-- Cuts the fast plan after t units. -/
def cutPlan : List Phase → Int → Int → Nat → List Phase
  | [], xe, v1, t => [⟨t, xe, v1, 0, 0⟩]
  | p :: r, xe, v1, t => if t ≤ p.dur then [{ p with dur := t }] else p :: cutPlan r xe v1 (t - p.dur)

/-- Time-optimal profile from (x, v, a) to rest at the target: as fast as the limits allow, then brake (R164, R167,
R168). -/
def planTarget (l : Limits) (x v a target : Int) : List Phase :=
  let now := rampTo l x v a 0
  if now.2 = target then now.1.filter fun p => p.dur ≠ 0
  else
    let d : Int := if target < now.2 then -1 else 1
    let v1 : Int := d * l.vmaxF
    let fast := rampTo l x v a v1
    let span := (target - x).natAbs + (fast.2 - x).natAbs
    let bound := phasesDur fast.1 + (span * unitsPerSecond) / l.vmaxF + 1
    let s := bisectTime l fast.1 fast.2 v1 target d (bound.log2 + 1) 0
    let e := planAt fast.1 fast.2 v1 s
    (cutPlan fast.1 fast.2 v1 s ++ (rampTo l e.1 e.2.1 e.2.2 0).1).filter (fun p => p.dur ≠ 0)

/-- Profile to a velocity, ending in cruise (R165). -/
def planVelocity (l : Limits) (x v a v1 : Int) : List Phase :=
  let q := rampTo l x v a v1
  q.1.filter (fun p => p.dur ≠ 0)

/-- Profile to rest (R179, R198); a quick stop brakes at QSDEC with no jerk limit. -/
def planStop (l : Limits) (x v a : Int) : List Phase := planVelocity l x v a 0

/-- Drops the phases that have ended after t units, with the time left in the first. -/
def advancePlan : List Phase → Nat → List Phase × Nat
  | [], t => ([], t)
  | p :: r, t => if t < p.dur then (p :: r, t) else advancePlan r (t - p.dur)

/-- Segment of R165 from velocity, acceleration and jerk. -/
def segOf (v a j : Int) : BitVec 4 :=
  if a = 0 ∧ j = 0 then (if v = 0 then 0 else 4)
  else
    let d := if v ≠ 0 then v.sign else if a ≠ 0 then a.sign else j.sign
    let up := 0 < d * a ∨ (a = 0 ∧ 0 < d * j)
    let grow := 0 < (if a = 0 then 1 else a.sign * j)
    if up then (if j = 0 then 2 else if grow then 1 else 3)
    else (if j = 0 then 6 else if grow then 5 else 7)

end Sys2Proof.Machine
end

