-- ==== Sys2Proof/Machine/Motion.lean ====
section
/-! DEFINITION. What one motion engine does at a tick edge (06_motion_engine.md R169 to R193). Every function works on
the engine of one axis; Machine/Tick.lean runs the steps of R192 over all axes. -/
namespace Sys2Proof.Machine

/-- The applied parameters of an axis that its engine uses at a tick edge (R162). -/
structure AxisCfg where
  lim : Limits
  qsdec : Nat
  enpol : Bool
  dismode : Bool
  ensrc : Bool
  mode : BitVec 2
  slmin : Int
  slmax : Int
  slen : Bool
  deriving DecidableEq, Repr

/-- One microstep in the engine's position format (R159). -/
def oneStep : Int := 4294967296

/-- Integer position reported by POS (R159). -/
def Engine.ipos (e : Engine) : Int := e.pos.fdiv oneStep

/-- Velocity in Q26.6 (R158). -/
def Engine.velQ (e : Engine) : Int := e.vel.fdiv (2 ^ 26)

/-- Present acceleration, saturated as reported (R158). -/
def Engine.accR (e : Engine) : Int := max (-2147483647) (min 2147483647 (e.acc.fdiv oneStep))

/-- Wraps a position into the 48-bit range (R161). -/
def wrapPos (p : Int) : Int := (p + 140737488355328 * oneStep).fmod (281474976710656 * oneStep) - 140737488355328 * oneStep

/-- The electrical angle of R159: integer position modulo 4096 above the top 20 fraction bits. -/
def angleOf (p : Int) : Word := BitVec.ofInt 32 (p.fdiv 4096)

/-- Signed 64-bit form of a 48-bit position (R158). -/
def word64 (i : Int) : BitVec 64 := BitVec.ofInt 64 i

/-- A position in a W pair is valid when its top bits copy bit 47 (R597). -/
def validPos (lo hi : Word) : Bool :=
  let i := (hi ++ lo : BitVec 64).toInt
  decide (-140737488355328 ≤ i ∧ i ≤ 140737488355327)

/-- An axis is at rest. -/
def Engine.atRest (e : Engine) : Bool := decide (e.vel = 0)

/-- No motion is planned: velocity and acceleration are 0 (R178). -/
def Engine.still (e : Engine) : Engine :=
  { e with vel := 0, acc := 0, plan := [], t := 0, vend := 0, restAt := none, quick := false, vclamp := false }

/-- Enters OFF: velocity and acceleration 0, POSUNK if it was moving (R178, R180). -/
def Engine.toOff (e : Engine) : Engine :=
  { e.still with st := .off, posunk := e.posunk || !e.atRest, edge := e.rose, staged := none }

/-- Enters FROZEN (R178, R180). -/
def Engine.toFrozen (e : Engine) : Engine :=
  { e.still with st := .frozen, posunk := e.posunk || !e.atRest, staged := none }

/-- Enters STANDBY at rest. -/
def Engine.toStandby (e : Engine) : Engine := { e.still with st := .standby }

/-- Sampling of the enable at a tick edge: the landed virtual bit, the pin corrected by ENPOL (R181). -/
def Engine.sampleEnable (c : AxisCfg) (pinHigh : Bool) (e : Engine) : Engine :=
  let pin := pinHigh != c.enpol
  let rose := (e.venNext && !e.ven) || (pin && !e.pin)
  { e with ven := e.venNext, pin := pin, en := if c.ensrc then e.venNext && pin else e.venNext,
           rose := rose, edge := e.edge || rose }

/-- Whether a redefinition of the position is allowed (R177). -/
def Engine.redefOk (e : Engine) (p : Int) : Bool :=
  match e.st with
  | .off => true
  | .standby => e.armed.isNone && decide ((p - e.ipos) % 4096 = 0)
  | _ => false

/-- Redefines the integer position, the fraction stays (R177; log 21). -/
def Engine.redefine (e : Engine) (p : Int) : Engine :=
  let q := p * oneStep + e.pos.fmod oneStep
  { e with pos := q, prevPos := q, posunk := false, target := if e.velmv then e.target else p }

/-- Takes the pending redefinition of a tick edge (R177, R191). -/
def Engine.applySetPos (e : Engine) : Engine :=
  match e.setPos with
  | none => e
  | some p =>
    let e := { e with setPos := none }
    if e.redefOk p then e.redefine p else { e with prej := true }

/-- Triggers of the last edge meet the armed move and the landed command (R176, R193). -/
def Engine.applyTrigger (c : AxisCfg) (e : Engine) : Engine :=
  let e1 := if e.trig then
      if e.st = .off ∨ c.mode ≠ 0 then { e with tnone := true }
      else if e.staged.isSome then { e with tnone := true, armed := none }
      else match e.armed with
        | none => { e with tnone := true }
        | some m => { e with staged := some (.move m), armed := none }
    else e
  { e1 with trig := false }

/-- Overrides take the configured value where they are 0; no VMAX above 20,480,000 microsteps per second (R160,
R172). -/
def Limits.overlaid (cfg ovr : Limits) : Limits where
  vmax := min 1310720000 (if ovr.vmax = 0 then cfg.vmax else ovr.vmax)
  acc := if ovr.acc = 0 then cfg.acc else ovr.acc
  dec := if ovr.dec = 0 then cfg.dec else ovr.dec
  jerk := if ovr.jerk = 0 then cfg.jerk else ovr.jerk

/-- The speed that no axis exceeds, in 2^-32 microstep per second (R160). -/
def speedCap : Int := 20480000 * oneStep

/-- Signed velocity of a velocity move after the clamp of R173, in 2^-32 microstep per second. -/
def clampVel (l : Limits) (v : Int) : Int :=
  (max (-(l.vmax : Int)) (min (l.vmax : Int) v)) * 2 ^ 26

/-- The position lies below the lower soft limit, or above the upper one (R186). -/
def AxisCfg.below (c : AxisCfg) (pos : Int) : Bool := decide (pos < c.slmin * oneStep)
def AxisCfg.above (c : AxisCfg) (pos : Int) : Bool := decide (c.slmax * oneStep < pos)

/-- Target of a move under the soft limits, and whether they replaced it: one outside the limits becomes the nearer
limit (R183); while the position lies outside, one further outward becomes the present position (R186). -/
def limitTarget (c : AxisCfg) (e : Engine) (x : Int) : Int × Bool :=
  if c.slen then
    if (c.below e.pos ∧ x < e.ipos) ∨ (c.above e.pos ∧ e.ipos < x) then (e.ipos, true)
    else (max c.slmin (min c.slmax x), decide (x < c.slmin ∨ c.slmax < x))
  else (x, false)

/-- Plans a velocity move towards a soft limit: it comes to rest exactly there (R183); outside that limit its velocity
is replaced by 0, and the axis is held there (R186). -/
def Engine.planToLimit (c : AxisCfg) (l : Limits) (v1 : Int) (e : Engine) : Engine :=
  if (if 0 < v1 then c.above e.pos else c.below e.pos) then
    { e with plan := planVelocity l e.pos e.vel e.acc 0, vend := 0, restAt := none, slsat := true }
  else
    let lim := (if 0 < v1 then c.slmax else c.slmin) * oneStep
    { e with plan := planTarget { l with vmax := v1.natAbs / 2 ^ 26 } e.pos e.vel e.acc lim, vend := 0,
             restAt := some lim }

/-- Plans the present move from the present state (R164, R169, R183, R186). `vend` is the velocity in which the plan
ends, `restAt` the position at which it comes to rest exactly. -/
def Engine.replan (c : AxisCfg) (m : Move) (e : Engine) : Engine :=
  let l := c.lim.overlaid m.ovr
  match m.goal with
  | .target x =>
    let q := limitTarget c e x
    let tgt := q.1 * oneStep
    { e with move := some m, limits := l, plan := planTarget l e.pos e.vel e.acc tgt, t := 0, target := q.1,
             vend := 0, restAt := some tgt, velmv := false, vclamp := false, slsat := q.2 }
  | .velocity v =>
    let v1 := clampVel l v
    let base := { e with move := some m, limits := l, t := 0, velmv := true,
                         vclamp := decide ((l.vmax : Int) < v ∨ v < -(l.vmax : Int)), slsat := false }
    if c.slen ∧ v1 ≠ 0 then base.planToLimit c l v1
    else { base with plan := planVelocity l e.pos e.vel e.acc v1, vend := v1, restAt := none }

/-- A planned move needs motion (R179). -/
def Engine.needsMotion (e : Engine) : Bool :=
  decide (e.vel ≠ 0 ∨ e.acc ≠ 0 ∨ e.plan ≠ [] ∨ e.vend ≠ 0 ∨ e.restAt.getD e.pos ≠ e.pos)

/-- The present or last move is a target move. -/
def Engine.inTarget (e : Engine) : Bool :=
  match e.move with
  | some ⟨.target _, _⟩ => true
  | _ => false

/-- The end of a move at rest: exactly at its target or limit (R167, R179, R183). -/
def Engine.arrive (e : Engine) : Engine :=
  { e.toStandby with pos := e.restAt.getD e.pos, side := 0, attgt := e.inTarget,
                     slsat := e.slsat || (!e.inTarget && e.restAt.isSome) }

/-- Starts a move (R165, R168, R179): the side from which it approaches its target is kept for OSHOOT; a move from the
target itself passes it in the direction of its present velocity. A move that needs no motion leaves STANDBY as it is. -/
def Engine.start (c : AxisCfg) (m : Move) (e : Engine) : Engine :=
  let e : Engine := Engine.replan c m { e with attgt := false }
  let side : Int := (e.target * oneStep - e.pos).sign
  let e : Engine := { e with side := if e.velmv then 0 else if side = 0 then e.vel.sign else side, cause := .command,
                             quick := false }
  if e.st = .standby ∧ e.needsMotion = false then e.arrive else { e with st := .ramp }

/-- Brakes to rest from the position, velocity and reported acceleration (R158, R179, R182, R198). An enable loss at rest
de-energises at once; every other stop enters STOPPING. -/
def Engine.brake (c : AxisCfg) (cause : StopCause) (quick : Bool) (e : Engine) : Engine :=
  let l : Limits := if quick then { c.lim with dec := c.qsdec, acc := max c.lim.acc c.qsdec, jerk := 0 } else c.lim
  let a : Int := if e.st = .follow then e.accR * oneStep else e.acc
  if e.vel = 0 ∧ (a = 0 ∨ l.jerk = 0) ∧ cause = .enableLoss then e.toOff
  else { e with st := .stopping, cause := cause, quick := quick, limits := l, t := 0, vclamp := false, vend := 0,
                restAt := none, acc := a, plan := planStop l e.pos e.vel a }

/-- Whether a landed motion command is discarded at the edge (R180). -/
def Engine.discards (c : AxisCfg) (bankRun lost : Bool) (e : Engine) : Bool :=
  lost || !bankRun || decide (e.st = .off) || decide (c.mode ≠ 0)
    || decide (e.st = .stopping ∧ e.cause ≠ .command)

/-- The transitions of a tick edge into OFF and FROZEN, and STANDBY from OFF (R179, R180, R182, R289), judged on the
state of the edge before, since R192 takes transitions before it integrates. Answers the engine, and whether ENLOSS is
raised. `run` that the bank is in RUN, `on` that it is in RUN or SERVICE; `wasEn` is the
effective enable before. -/
def Engine.transition1 (c : AxisCfg) (run on wasEn : Bool) (e : Engine) : Engine × Bool :=
  let lost := wasEn && !e.en
  let idle : Engine := { e with staged := none, modeWrite := false, offReq := false, stopReq := none, freezeReq := false }
  if e.st = .off then
    if run ∧ e.en ∧ e.edge then ({ idle.toStandby with edge := false, modeWrite := decide (c.mode ≠ 0) }, false)
    else (idle, false)
  else if !on || e.offReq then (idle.toOff, lost && !e.atRest)
  else if (lost ∧ c.dismode) ∨ (!e.en ∧ e.atRest) then (idle.toOff, lost && !e.atRest)
  else if e.freezeReq ∧ (e.st = .ramp ∨ e.st = .follow ∨ e.st = .stopping) then (idle.toFrozen, lost)
  else ({ e with freezeReq := false }, lost)

/-- One tick of the present plan: `n` units (R164, R167). Past its phases it goes on at the velocity in which it ends. -/
def Engine.advance (n : Nat) (e : Engine) : Engine :=
  let q := advancePlan e.plan (e.t + n)
  match q.1 with
  | p :: r =>
    let s := phaseAt p q.2
    { e with plan := p :: r, t := q.2, pos := s.1, vel := s.2.1, acc := s.2.2 }
  | [] =>
    let s := match e.plan.getLast? with
      | some p => (phaseAt p p.dur).1
      | none => e.pos
    { e with plan := [], t := 0, pos := s + divRound (e.vend * q.2) unitsPerSecond, vel := e.vend, acc := 0 }

/-- Holds the speed at the cap of R160: a state past it gives way to the cap at acceleration 0, reached from the state
before; the plan is void from there. Answers whether it acted. -/
def Engine.holdCap (n : Nat) (before e : Engine) : Engine × Bool :=
  if speedCap < (e.vel.natAbs : Int) then
    let v := e.vel.sign * speedCap
    ({ e with vel := v, acc := 0, plan := [], t := 0, vend := v,
              pos := before.pos + divRound ((before.vel + v) * n) (2 * unitsPerSecond) }, true)
  else (e, false)

/-- End of a ramp or a stop after the integration (R167, R179, R183). -/
def Engine.finish (e : Engine) : Engine :=
  if e.plan ≠ [] ∨ e.vend ≠ 0 then e
  else match e.st with
    | .ramp => e.arrive
    | .stopping => if e.cause = .enableLoss ∨ !e.en then e.toOff else e.toStandby
    | _ => e

/-- A replan of the move that runs, with the limits as they now stand (R169). -/
def Engine.again (c : AxisCfg) (e : Engine) : Engine :=
  match e.st, e.move with
  | .ramp, some m => { Engine.replan c m e with velmv := e.velmv }
  | .stopping, _ => e.brake c e.cause e.quick
  | _, _ => e

/-- The moves of a tick edge that begin at the position reached: stop reactions, enable loss, landed commands (R179,
R180). `changed` says that a limit, soft limit or override changed, which replans (R169). -/
def Engine.transition2 (c : AxisCfg) (bankRun lost changed : Bool) (e : Engine) : Engine :=
  let moving := e.st = .ramp ∨ e.st = .follow
  let cmd := e.staged
  let e := { e with staged := none }
  if lost ∧ e.st = .standby then e.toOff
  else if lost ∧ (moving ∨ e.st = .stopping) then
    { e with stopReq := none }.brake c .enableLoss (e.stopReq = some true ∨ (e.st = AxState.stopping ∧ e.quick = true))
  else if e.stopReq.isSome ∧ (moving ∨ e.st = .stopping) then
    { e with stopReq := none }.brake c .fault (e.stopReq = some true ∨ (e.st = AxState.stopping ∧ e.quick = true))
  else
    let e := { e with stopReq := none }
    let again : Engine := if changed then e.again c else e
    match cmd with
    | some (.stop quick) =>
      if moving then { e with slsat := false }.brake c .command quick
      else if e.st = .stopping ∧ quick then { e with slsat := false }.brake c e.cause true
      else again
    | some (.move m) =>
      if e.discards c bankRun lost then again
      else if e.st = .standby ∨ e.st = .ramp ∨ e.st = .stopping ∨ e.st = .frozen then
        { e with slsat := false }.start c m
      else again
    | none => again

/-- OSHOOT of R168: the axis is beyond the target that its move came up to. -/
def Engine.oshoot (e : Engine) : Bool :=
  decide (e.st = .ramp) && !e.velmv && decide (e.side * (e.pos - e.target * oneStep).sign > 0)

/-- Soft limits after the integration: saturation at speed (R185), OUTSIDE (R186), wrap (R161), which moves the plan
with the position. Answers the engine and
whether SLHARD and OUTSIDE are raised. `wasOut` is OUTSIDE before. -/
def Engine.softLimits (c : AxisCfg) (e : Engine) : Engine × Bool × Bool :=
  if !c.slen then
    let p := wrapPos e.pos
    let d := p - e.pos
    ({ e with pos := p, plan := e.plan.map fun q => { q with x := q.x + d }, restAt := e.restAt.map (· + d),
              wrapped := e.wrapped || decide (d ≠ 0), outside := false }, false, false)
  else if e.st = .follow then ({ e with outside := false }, false, false)
  else
    let lo := c.slmin * oneStep
    let hi := c.slmax * oneStep
    let out := c.below e.pos || c.above e.pos
    let wasIn := decide (lo ≤ e.prevPos ∧ e.prevPos ≤ hi)
    if out ∧ wasIn ∧ e.vel ≠ 0 ∧ ¬ e.outside then
      let held : Engine := { e with pos := if e.pos < lo then lo else hi, vel := 0, acc := 0 }
      let next := if e.st = .stopping ∧ (e.cause = .enableLoss ∨ ¬ e.en) then held.toOff else held.toStandby
      ({ next with slsat := true, outside := false }, true, false)
    else ({ e with outside := out }, false, out && (!e.outside || e.limWrite))

/-! ## Position compare (R187 to R190) -/

/-- What a fire does: the value that fired and whether at rest. -/
structure Fire where
  value : Int
  rest : Bool
  deriving DecidableEq, Repr

/-- Whether C is crossed from p to q (R187). -/
def crosses (c p q : Int) : Bool := decide ((p < c ∧ c ≤ q) ∨ (q ≤ c ∧ c < p))

/-- Whether DIR allows a crossing from p to q (R188). -/
def dirAllows (d : BitVec 2) (p q : Int) : Bool :=
  decide (d = 0) || (decide (d = 1) && decide (p < q)) || (decide (d = 2) && decide (q < p))

/-- A 48-bit signed value of an integer. -/
def wrap48 (i : Int) : Int := (i + 140737488355328).fmod 281474976710656 - 140737488355328

/-- After a fire (R189): one-shot or repeat. `p`, `q` the integer positions before and after. -/
def Compare.fire (k : Compare) (p q : Int) (rest : Bool) : Compare :=
  let k := { k with fired := true, firecnt := k.firecnt + 1, behind := false }
  let n : Int := k.int.toNat
  if n = 0 then { k with arm := false, active := false }
  else if rest then { k with val := wrap48 (if k.dir = 2 then k.val - n else k.val + n), active := true }
  else
    let gone := if p < q then q - k.val else k.val - q
    let steps := gone.fdiv n + 1
    { k with val := wrap48 (if p < q then k.val + n * steps else k.val - n * steps),
             skip := k.skip || decide (1 < steps), active := true }

/-- The compare at a tick edge, from integer position p to q; `still` that this edge's change is no motion (a wrap or a
redefinition), `dir` the sign of the velocity (R187, R188, R189). -/
def Compare.tick (k : Compare) (p q : Int) (still : Bool) (dir : Int) : Compare × Option Fire :=
  if k.armWrite ∧ k.arm then
    let k := { k with armWrite := false, active := true, behind := false }
    if dir = 0 then
      if k.val = q then (k.fire q q true, some ⟨k.val, true⟩) else (k, none)
    else
      let ahead := if 0 < dir then decide (q < k.val) else decide (k.val < q)
      if ahead then (k, none) else ({ k with behind := true }, none)
  else if k.arm ∧ k.active ∧ ¬ still ∧ crosses k.val p q ∧ (k.behind ∨ dirAllows k.dir p q) then
    (k.fire p q false, some ⟨k.val, false⟩)
  else ({ k with armWrite := false }, none)

end Sys2Proof.Machine
end

