-- ==== Sys2Proof/Machine/Follow.lean ====
section
/-! DEFINITION. The follow path, step/direction inputs, streams and gearing of one axis
(07_followers_and_streams.md). -/
namespace Sys2Proof.Machine

/-- The applied follower, stream and gearing parameters of an axis (R218). -/
structure FollowCfg where
  smooth : Nat
  sdmult : Int
  dirinv : Bool
  edgeSel : BitVec 2
  squota : Nat
  sprime : Nat
  grpstop : Bool
  gkindFb : Bool
  gnumSrc : Nat
  gnum : Int
  gden : Int
  laglim : Int
  deriving DecidableEq, Repr

/-- Shortest signed distance between two positions that wrap (R161). -/
def wrapDiff (a b : Int) : Int := wrapPos (a - b)

/-! ## Step/direction (R199 to R201) -/

/-- Whether a filtered edge is active under EDGE (R199). -/
def activeEdge (sel : BitVec 2) (rising : Bool) : Bool :=
  if sel = 0 then rising else if sel = 1 then !rising else true

/-- An active edge counts in SDPULSES, and in the accumulator in follower mode (R200). -/
def Follow.step (c : FollowCfg) (following dirHigh : Bool) (f : Follow) : Follow :=
  let d := if dirHigh != c.dirinv then c.sdmult else -c.sdmult
  { f with sdpulses := f.sdpulses + 1, sdacc := if following then wrap48 (f.sdacc + d) else f.sdacc }

/-- Source position of the follower (R201): the moving average of the accumulator since entry. -/
def Follow.sdSource (c : FollowCfg) (f : Follow) : Int :=
  let w := 2 ^ c.smooth
  let sum := (f.hist.take w).foldl (fun n a => n + wrap48 (a - f.s0)) 0
  f.p0 + (sum * oneStep).fdiv w

/-! ## Streams (R202 to R215) -/

/-- A point from its two words (R202). -/
def pointOf (w0 w1 : Word) : Point :=
  ⟨((w1.extractLsb' 0 8) ++ w0 : BitVec 40).toInt, (w1.extractLsb' 16 16).toNat, w1.getLsbD 15⟩

/-- Result of a point that completes: stored, discarded for DUR 0 (R203), or refused at the quota (R207). -/
inductive PointResult where
  | stored | badPoint | refused
  deriving DecidableEq, Repr

/-- A completed point enters the FIFO (R203, R207). -/
def Stream.putPoint (quota : Nat) (p : Point) (t : Stream) : Stream × PointResult :=
  if quota ≤ t.fifo.length then ({ t with refd := true }, .refused)
  else if p.dur = 0 then (t, .badPoint)
  else ({ t with fifo := t.fifo ++ [p] }, .stored)

/-- Position within the head segment at stream time u, in 2^-32 microstep (R204). -/
def Stream.segmentAt (t : Stream) (u : Nat) : Int :=
  match t.fifo with
  | [] => t.origin + t.x0 * oneStep
  | p :: _ => t.origin + t.x0 * oneStep + ((p.off - t.x0) * oneStep * ((u - t.uStart : Nat) : Int)).fdiv p.dur

/-- Velocity of a segment in 2^-32 microstep per second (R204, R212). -/
def segmentVel (x0 : Int) (p : Point) : Int := ((p.off - x0) * oneStep * 20000).fdiv p.dur

/-- Plays every point whose end time u reaches; stops after a point with LAST (R204). Answers whether LAST played. -/
def playPoints (u : Nat) : List Point → Int → Nat → Nat → Int → List Point × Int × Nat × Nat × Int × Bool
  | [], x0, us, n, v => ([], x0, us, n, v, false)
  | p :: r, x0, us, n, v =>
    if us + p.dur ≤ u then
      if p.last then (r, p.off, us + p.dur, n + 1, segmentVel x0 p, true)
      else playPoints u r p.off (us + p.dur) (n + 1) (segmentVel x0 p)
    else (p :: r, x0, us, n, v, false)

/-- Start of a brake of the source (R212): from position x at velocity v under DEC and JERK, `t` units ago. -/
def brakeFrom (l : Limits) (x v : Int) (t : Nat) : Brake := ⟨planStop l x v 0, x, t⟩

/-- Position of a braking source after its elapsed time, and whether it rests; a source with no velocity rests where it
is. -/
def Brake.at (b : Brake) : Int × Bool :=
  match advancePlan b.plan b.t with
  | (p :: _, t) => ((phaseAt p t).1, false)
  | ([], _) =>
    match b.plan.getLast? with
    | some p => ((phaseAt p p.dur).1, true)
    | none => (b.x, true)

/-- What a stream's tick raises: bit 3 UNDERRUN, or nothing; and whether its start group is to stop (R215). -/
structure StreamTick where
  s : Int
  underrun : Bool
  ended : Bool
  deriving DecidableEq, Repr

/-- A stream that plays, by `units` stream units from source position s (R204, R211, R212, R157). -/
def Stream.play (l : Limits) (units : Nat) (_s : Int) (t : Stream) : Stream × StreamTick :=
  let u := t.u + units
  let q := playPoints u t.fifo t.x0 t.uStart t.played t.vseg
  let t := { t with u := u, fifo := q.1, x0 := q.2.1, uStart := q.2.2.1, played := q.2.2.2.1, vseg := q.2.2.2.2.1 }
  let last := q.2.2.2.2.2
  let endPos := t.origin + t.x0 * oneStep
  let fed : Bool := match t.feed with
    | some f => decide (f.left = 0) && !f.busy
    | none => false
  if last ∨ (t.fifo = [] ∧ fed ∧ t.uStart ≤ u) then
    ({ t with st := t.st.map fun _ => .done, playOut := false, u := t.uStart }, ⟨endPos, false, false⟩)
  else if t.fifo = [] ∧ t.uStart < u then
    let b := brakeFrom l endPos t.vseg ((u - t.uStart) * unitsPerTick)
    ({ t with st := t.st.map fun _ => .underrun, brake := some b, u := t.uStart },
     ⟨b.at.1, t.st.isSome, t.st.isSome⟩)
  else ({ t with vseg := match t.fifo with
                    | [] => t.vseg
                    | p :: _ => segmentVel t.x0 p }, ⟨t.segmentAt u, false, false⟩)

/-- One tick of a stream whose axis is in FOLLOW with MODE 0b10; `tick` the tick number, `c` the commanded position,
`s` the source position before (R204, R211 to R215, R157). -/
def Stream.tick (l : Limits) (units tick : Nat) (c s : Int) (t : Stream) : Stream × StreamTick :=
  if t.st = some .pending ∧ tick % 65536 = t.startAt % 65536 then
    ({ t with st := some .run, origin := c - t.x0 * oneStep, u := t.uStart, brake := none }, ⟨c, false, false⟩)
  else
    match t.brake with
    | some b =>
      let b := { b with t := b.t + units * unitsPerTick }
      let q := b.at
      if q.2 then ({ t with brake := none, playOut := false, groupDue := false }, ⟨q.1, false, false⟩)
      else ({ t with brake := some b, groupDue := false }, ⟨q.1, false, false⟩)
    | none =>
      if t.st = some .run ∧ t.groupDue then
        let q := t.play l units s
        if q.1.st = some .run then
          let b := brakeFrom l q.2.s q.1.vseg 0
          ({ q.1 with st := some .group, brake := some b, groupDue := false, u := q.1.uStart }, ⟨q.2.s, false, false⟩)
        else ({ q.1 with groupDue := false }, q.2)
      else if t.st = some .run ∨ t.playOut then t.play l units s
      else ({ t with groupDue := false }, ⟨s, false, false⟩)

/-- A stream whose axis left FOLLOW, was frozen, or takes a new MODE (R211). Answers whether it entered STOPPED. -/
def Stream.leave (t : Stream) : Stream × Bool :=
  if t.st = some .pending ∨ t.st = some .run then
    ({ t with st := some .stopped, playOut := false, brake := none, u := t.uStart }, decide (t.st = some .run))
  else ({ t with playOut := false, brake := none }, false)

/-- FREE of the window status word (R206). -/
def Stream.free (quota : Nat) (t : Stream) : Nat := quota - t.fifo.length

/-- Code of SSTATE (R210). -/
def SState.code : SState → BitVec 3
  | .open_ => 0
  | .pending => 1
  | .run => 2
  | .done => 3
  | .underrun => 4
  | .stopped => 5
  | .group => 6

/-- The window status word of R206; 0 while the stream is not open (R210). -/
def Stream.status (quota : Nat) (t : Stream) : Word :=
  match t.st with
  | none => 0
  | some x =>
    ((1#1 ++ x.code ++ BitVec.ofBool t.half.isSome ++ BitVec.ofBool t.refd ++ BitVec.ofNat 10 t.fifo.length
      ++ 0#6 ++ BitVec.ofNat 10 (t.free quota) : BitVec 32))

/-- Empties the FIFO and drops a held half (R205, R223). -/
def Stream.empty (t : Stream) : Stream := { t with fifo := [], half := none }

/-- STREAM_FLUSH (R223): OPEN again, the fetch rewound; a running brake goes on. -/
def Stream.flush (t : Stream) : Stream :=
  { t.empty with st := some .open_, played := 0, x0 := 0, u := 0, uStart := 0,
                 feed := t.feed.map fun f => { f with next := f.addr, left := f.count, busy := false, retry := false } }

/-- STREAM_CLOSE (R157): a stream in RUN plays out; PENDING and every other state empty the FIFO, and a brake that runs
there goes on. -/
def Stream.close (t : Stream) : Stream :=
  let base := { t with st := none, window := none, feed := none, half := none, refd := false, group := 0 }
  if t.st = some .run then { base with playOut := true }
  else { base with fifo := [], playOut := false }

/-- Points still to come up to the end (R214): up to LAST in the FIFO, or the unfetched count beside the FIFO. -/
def pointsToEnd (t : Stream) : Option Nat :=
  match t.fifo.findIdx? (fun p => p.last) with
  | some i => some (i + 1)
  | none => t.feed.map fun f => f.left + t.fifo.length

/-- Whether the FIFO is primed for a start (R214). -/
def Stream.primed (sprime : Nat) (t : Stream) : Bool :=
  decide (1 ≤ t.fifo.length) &&
    (match pointsToEnd t with
     | some n => decide (min sprime n ≤ t.fifo.length)
     | none => decide (sprime ≤ t.fifo.length))

/-- What the live values show at a tick edge (R219). -/
def Axis.liveNow (quota : Nat) (a : Axis) : StreamLive where
  sdacc := a.fol.sdacc
  pulses := a.fol.sdpulses
  status := a.str.status quota
  played := a.str.played
  lag := max (-2147483647) (min 2147483647 (a.fol.lag.fdiv oneStep))
  time := a.str.u
  next := (a.str.feed.map fun f => f.next).getD 0
  left := (a.str.feed.map fun f => f.left).getD 0

/-- Size of the fetch that is due, if one is (R209). -/
def Stream.fetchDue (quota : Nat) (t : Stream) : Option Nat :=
  match t.st, t.feed with
  | some _, some f =>
    let room := quota - t.fifo.length
    if f.left ≠ 0 ∧ !f.busy ∧ min 64 f.left ≤ room then some (min 64 (min room f.left)) else none
  | _, _ => none

/-! ## Gearing (R216, R217) -/

/-- Accumulates the change of a feedback count (R216); an invalid count is held and GSRCBAD raised once (R217). -/
def Follow.fbSample (count : Word) (valid : Bool) (f : Follow) : Follow × Bool :=
  if valid then ({ f with gAcc := f.gAcc + (count - f.gLast).toInt, gLast := count, gBad := false }, false)
  else ({ f with gBad := true }, !f.gBad)

/-- Source position of gearing from its coordinate (R216), 32 fraction bits, no remainder lost. -/
def Follow.gearSource (c : FollowCfg) (coord : Int) (f : Follow) : Int :=
  let d := if c.gkindFb then coord - f.s0 else wrap48 (coord - f.s0)
  f.p0 + (d * c.gnum * oneStep).fdiv c.gden

/-- Fresh captures P0 and S0 (R194, R217); an invalid count of the source just taken is not yet reported. -/
def Follow.captureAt (p coord : Int) (f : Follow) : Follow :=
  { f with p0 := p, s0 := coord, s := p, hist := [], gBad := false }

/-! ## The common path (R196, R197, R184, R185) -/

/-- The commanded position of a tick: source position s through the speed clamp and the soft limits. `units` is 1, or
2 at the 100 µs tick. Answers engine, follow path, and whether SLHARD, OUTSIDE and LAG are raised. -/
def followPath (c : AxisCfg) (fc : FollowCfg) (units : Nat) (s : Int) (e : Engine) (f : Follow) :
    Engine × Follow × Bool × Bool × Bool :=
  let room : Int := (c.lim.vmax * 2 ^ 26 * units / 20000 : Nat)
  let want := wrapDiff s e.pos
  let d := max (-room) (min room want)
  let c1 := e.pos + d
  let lo := c.slmin * oneStep
  let hi := c.slmax * oneStep
  let c2 := if c.slen then max lo (min hi c1) else wrapPos c1
  let clamped := c.slen && decide (c2 ≠ c1)
  let v : Int := if clamped then 0 else (d * 20000).fdiv units
  let a : Int := if clamped then 0 else ((v - e.vel) * 20000).fdiv units
  let outWas := e.outside
  let out := c.slen && decide (e.pos < lo ∨ hi < e.pos)
  let hard := clamped && !e.slsat && decide (e.vel ≠ 0)
  let lag := wrapDiff s c2
  let beyond := decide (fc.laglim ≠ 0) && decide (fc.laglim * oneStep < (lag.natAbs : Int))
  ({ e with pos := c2, vel := v, acc := a, limits := c.lim, vclamp := decide (d ≠ want), slsat := clamped, outside := false,
            wrapped := e.wrapped || (!c.slen && decide (c2 ≠ c1)) },
   { f with s := c2 + lag, lag := lag, lagOver := beyond },
   hard, out && (!outWas || e.limWrite), beyond && !f.lagOver)

end Sys2Proof.Machine
end

