-- ==== Sys2Proof/Machine/Current.lean ====
section
/-! DEFINITION. From angle and magnitude to phase references, the current loop, budgets and the I²t account
(08_microsteps_and_current.md R225 to R254). -/
namespace Sys2Proof.Machine

/-! ## Sine generator -/

/-- π in units of 2^-62. -/
def piQ : Int := 14488038916154245685

/-- Sum of the sine series: `t` the present term, `k` its order, `x2` the squared angle, in 2^-62 (log 22). -/
def sinSum : Nat → Int → Int → Int → Int
  | 0, _, _, _ => 0
  | f + 1, t, k, x2 => t + sinSum f (-(t * x2 / 4611686018427387904) / ((k + 1) * (k + 2))) (k + 2) x2

/-- Sine of a quarter wave at num/den of a right angle, 2^-62. -/
def sinQuarter (num den : Nat) : Int :=
  let x := piQ * num / (2 * (den : Int))
  sinSum 16 x 1 (x * x / 4611686018427387904)

/-- Sine of an angle in 1/65,536 of an electrical cycle, 2^-62. -/
def sinQ (a : BitVec 16) : Int :=
  let f := (a.extractLsb' 0 14).toNat
  match (a.extractLsb' 14 2).toNat with
  | 0 => sinQuarter f 16384
  | 1 => sinQuarter (16384 - f) 16384
  | 2 => -sinQuarter f 16384
  | _ => -sinQuarter (16384 - f) 16384

/-- Cosine in the units of `sinQ`. -/
def cosQ (a : BitVec 16) : Int := sinQ (a + 16384)

/-- Default table entry i (R227). -/
def sineEntry (i : Nat) : Nat := ((65535 * sinQuarter i 256 * 2 + 4611686018427387904) / 9223372036854775808).toNat

/-- Word j of the default ITABLE (R227, R261). -/
def sineWord (j : Nat) : Word := BitVec.ofNat 16 (sineEntry (2 * j + 1)) ++ BitVec.ofNat 16 (sineEntry (2 * j))

/-! ## References (R225 to R229, R249) -/

/-- Entry i of a table given by its words; E[256] is 65,535 (R226). -/
def entryOf (w : Nat → Word) (i : Nat) : Int :=
  if 256 ≤ i then 65535
  else ((if i % 2 = 0 then (w (i / 2)).extractLsb' 0 16 else (w (i / 2)).extractLsb' 16 16).toNat : Nat)

/-- T(x) of R226. -/
def tableT (w : Nat → Word) (x : Nat) : Int :=
  let j := x / 64
  entryOf w j + ((entryOf w (j + 1) - entryOf w j) * ((x % 64 : Nat) : Int)).tdiv 64

/-- W(θ) of R226. -/
def tableW (w : Nat → Word) (a : BitVec 16) : Int :=
  let f := (a.extractLsb' 0 14).toNat
  match (a.extractLsb' 14 2).toNat with
  | 0 => tableT w f
  | 1 => tableT w (16384 - f)
  | 2 => -tableT w f
  | _ => -tableT w (16384 - f)

/-- Table entries that form the reference at an angle, as word indices (R99, R226). -/
def tableWords (a : BitVec 16) : List Nat :=
  let f := (a.extractLsb' 0 14).toNat
  let x := if (a.extractLsb' 14 1).toNat = 0 then f else 16384 - f
  ([x / 64, x / 64 + 1].filter (· < 256)).map (· / 2)

/-- H(θ) of R229 with 32 fraction bits; coefficients h3s, h3c, h5s, h5c. -/
def harmonicH (h : Vector (BitVec 16) 4) (a : BitVec 16) : Int :=
  if h = Vector.replicate 4 0 then 0
  else
    let s := h[0].toInt * sinQ (3 * a) + h[1].toInt * cosQ (3 * a) + h[2].toInt * sinQ (5 * a) + h[3].toInt * cosQ (5 * a)
    (65535 * s).fdiv (32768 * 1073741824)

/-- i_ref of R228 in mA from the effective magnitude M and W + H with 32 fraction bits. -/
def phaseRef (m : Nat) (wh : Int) : Int :=
  let x := (max (-(65535 * oneStep)) (min (65535 * oneStep) wh))
  let q := isqrt (32 * (m * x.natAbs) ^ 2 / (65535 ^ 2 * 2 ^ 64))
  x.sign * (((q + 1) / 2 : Nat) : Int)

/-- Effective magnitude (R249, R233): floor(IMAG × f / 32,768), codes above 3000 clamped. -/
def effMag (imag : Nat) (f : Nat) : Nat := min 3000 imag * f / 32768

/-! ## The current loop (R250 to R253) -/

/-- One volt in the loop's units. -/
def loopVolt : Int := 122880000000 * 524280

/-- Parameters of a phase loop (R261). -/
structure LoopCfg where
  kp : Int
  ki : Int
  rff : Int
  busff : Bool
  trkcnt : Nat
  trklim : Nat
  deriving DecidableEq, Repr

/-- One period of a phase loop: reference and measured current in mA, back-EMF term in loop units, bus in 0.1 V, period
P in PWM clocks (R250, R252, R253; the integrator is held on the voltage formed before it advances, log 23). -/
def PhaseLoop.run (c : LoopCfg) (iref imeas emf vbus : Int) (p : Nat) (l : PhaseLoop) : PhaseLoop :=
  let e := iref - imeas
  let vb := vbus * loopVolt / 10
  let div := if c.busff then vb else 400 * loopVolt
  let rest := c.kp * e * 480000 * 524280 + c.rff * iref * 122880 * 524280 + emf
  let held := rest + l.integ
  let stuck := decide (div ≤ (held.natAbs : Int)) && decide (0 < e.sign * held.sign)
  let integ := if stuck then l.integ else max (-vb) (min vb (l.integ + c.ki * e * p * 524280))
  let v := rest + integ
  let vc := max (-div) (min div v)
  let full := decide (div ≤ (v.natAbs : Int))
  let code1 : Nat := if div = 0 then (if 0 < v then p * 16 else if v < 0 then 0 else p * 8)
    else (divRound (8 * p * (div + vc)) div.toNat).toNat
  let open_ := decide (200 ≤ iref.natAbs) && decide (imeas.natAbs * 16 < iref.natAbs) && full
  let trk := decide (c.trklim < e.natAbs)
  { l with integ := integ, iref := iref, imeas := imeas, volts := v, code1 := code1, code2 := p * 16 - code1,
           delta := if full then v.sign else 0,
           satRun := if full then l.satRun + 1 else 0, satUp := l.satUp && full,
           openRun := if open_ then l.openRun + 1 else 0, openUp := l.openUp && open_,
           trkRun := if trk then l.trkRun + 1 else 0, trkUp := l.trkUp && trk }

/-- The back-EMF term of source 0b10 in loop units: KE × v × W / 65,535 (R251). -/
def keTerm (ke vff w : Int) : Int := ke * vff * w * 15

/-! ## Current magnitude (R234 to R246) -/

/-- The applied current parameters of an axis (R260). -/
structure CurCfg where
  irun : Nat
  ihold : Nat
  iboost : Nat
  holddly : Nat
  islew : Nat
  ibudget : Nat
  lacen : Bool
  deriving DecidableEq, Repr

/-- State current S (R235) and whether it is IBOOST. -/
def stateCurrent (c : CurCfg) (e : Engine) (k : AxCurrent) (seg : BitVec 4) : Nat × Bool :=
  match e.st with
  | .off => (0, false)
  | .standby => (if k.holdDone then c.ihold else c.irun, false)
  | .ramp => if c.iboost ≠ 0 ∧ seg ≠ 4 ∧ seg ≠ 0 then (c.iboost, true) else (c.irun, false)
  | .stopping => if c.iboost ≠ 0 ∧ ((seg ≠ 4 ∧ seg ≠ 0) ∨ e.quick) then (c.iboost, true) else (c.irun, false)
  | .follow => (c.irun, false)
  | .frozen => (c.irun, false)

/-- S_eff of R234 in twentieths of a code; `units` the tick in 50 µs. -/
def nextSEff (c : CurCfg) (units : Nat) (off : Bool) (s : Nat) (k : AxCurrent) : Int :=
  if off then 0
  else if k.sEff ≤ 20 * (s : Int) then 20 * (s : Int)
  else max (20 * (s : Int)) (k.sEff - c.islew * units)

/-- B_eff of R240 in twentieths of a code towards target `t` in codes. -/
def nextBEff (c : CurCfg) (units : Nat) (t : Nat) (k : AxCurrent) : Int :=
  let tt : Int := 20 * (t : Int)
  if k.bEff ≤ tt then tt
  else if k.imag ≤ t then tt
  else max tt (k.bEff - c.islew * units)

/-- The I²t cap L of R245 in 1/4000 of a code. -/
def i2tCap (k : AxCurrent) : Int :=
  if k.derating then 2000 * 4000 + ((k.fallFrom : Int) - 2000) * (4000 - (k.fallT : Int))
  else if k.lock then 2000 * 4000
  else 3000 * 4000

/-- IMAG of R234 from S_eff, B_eff (twentieths), L (1/4000) and the Kiln factor kn/kd. -/
def magnitude (s b l : Int) (kn kd : Nat) : Nat := ((min (min (s * 200) (b * 200)) l * kn) / (4000 * (kd : Int))).toNat

/-- The account of R244 after a tick with magnitude c, in 10^-7 units. -/
def nextAcct (units c acct : Nat) : Nat :=
  if 2000 < c then acct - (c * c - 4000000) * 18 * units
  else min 3600000000000 (acct + 10000000 * units)

/-- The node's current step of one axis at a tick edge (R234, R240, R244, R245, R246): `target` the budget target,
`cone1` that the axis lies in cone 1 or above, `home` the current `HCUR` of a seek (R292). The emptying of the account
is left due for I2T_EMPTY. -/
def AxCurrent.tick (c : CurCfg) (units target : Nat) (kn kd : Nat) (cone1 : Bool) (e : Engine) (seg : BitVec 4)
    (entered : Bool) (home : Option Nat) (k : AxCurrent) : AxCurrent :=
  let holdT := if e.st = .standby ∧ ¬ entered then k.holdT + units else 0
  let holdDone := decide (e.st = .standby ∧ 20 * c.holddly ≤ holdT)
  let k := { k with holdT := holdT, holdDone := holdDone }
  let s := match home with
    | some h => (h, false)
    | none => stateCurrent c e k seg
  let sEff := nextSEff c units (decide (e.st = .off)) s.1 k
  let bEff := nextBEff c units target k
  let fallT := if k.derating then k.fallT + units else k.fallT
  let k := { k with sEff := sEff, bEff := bEff, fallT := min 4000 fallT,
                    derating := k.derating && decide (fallT < 4000), lock := k.lock || (k.derating && decide (4000 ≤ fallT)) }
  let l := i2tCap k
  let m0 := magnitude sEff bEff l kn kd
  let m := if cone1 ∧ k.imag ≤ 2000 ∧ 2000 < m0 then magnitude sEff bEff (min l (2000 * 4000)) kn kd else m0
  let acct := nextAcct units m k.acct
  { k with imag := m, acct := acct, i2tDue := k.i2tDue || (decide (acct = 0) && decide (k.acct ≠ 0)),
           loadPermit := c.lacen && decide (e.st = .standby ∨ e.st = .ramp ∨ e.st = .follow) && !s.2 && !k.derating && home.isNone }

/-- Harmonic update of one coefficient (R230). -/
def harmStep (h rho : BitVec 16) (rate hlmax : Nat) : BitVec 16 :=
  BitVec.ofInt 16 (max (-(hlmax : Int)) (min hlmax (h.toInt - divRound rho.toInt (2 ^ rate))))

end Sys2Proof.Machine
end

