-- ==== Sys2Proof/Machine/Observer.lean ====
section
/-! DEFINITION. The load-angle observer, stall judgement, load-angle regulation, load-adaptive current and homing
arithmetic (09_load_angle_observer.md, 08_microsteps_and_current.md R230, R247). -/
namespace Sys2Proof.Machine

/-- Applied observer parameters of an axis, bank-held (R299, R260). -/
structure ObsCfg where
  vemf : Nat
  rph : Int
  lph : Int
  stallth : Nat
  stallcnt : Nat
  lart : Int
  larmax : Int
  lalow : Nat
  lahigh : Nat
  lacmin : Nat
  lacstep : Nat
  hlen : Bool
  hlrate : Nat
  hlmax : Nat
  emfsrc : BitVec 2
  ke : Int
  deriving DecidableEq, Repr

/-! ## Modes (R271 to R274) -/

/-- Mode and cause of a tick from the current word, velocity feed-forward (Q26.6) and injection enable (R271). -/
def modeOf (c : ObsCfg) (cur : Word) (vff : Int) (inj : Bool) (o : ObsBank) : OMode × BitVec 3 :=
  let v := vff.natAbs
  if cur.getLsbD 0 = false ∨ cur.extractLsb' 16 12 = 0 then (.blind, 1)
  else if c.vemf * 64 ≤ v ∨ (c.vemf * 56 ≤ v ∧ o.mode = .emf) then (.emf, 0)
  else if 0 < v ∧ v < 10240 * 64 then (.blind, 2)
  else if !inj then (.blind, 3)
  else if o.start < 8 then (.blind, 4)
  else if 16 ≤ o.skipRun then (.blind, 5)
  else (.inject, 0)

/-- Whether a decided mode injects: INJECT, or BLIND under rows 5 and 6 (R271, R275). -/
def injects (m : OMode × BitVec 3) : Bool := decide (m.1 = .inject ∨ m.2 = 4 ∨ m.2 = 5)

/-- The decision of a tick edge (R271, R273); an entry into INJECT starts λu from the last measured θr, run on at the
commanded velocity (R274, R276). -/
def ObsBank.decideMode (c : ObsCfg) (cur : Word) (vff : Int) (inj : Bool) (o : ObsBank) : ObsBank :=
  let m := modeOf c cur vff inj o
  let restart := decide (m.2 = 1 ∨ m.2 = 2 ∨ m.2 = 3)
  let settle := decide (o.mode ≠ .blind ∧ m.1 ≠ .blind ∧ o.mode ≠ m.1)
  let entry := decide (o.mode = .blind ∧ m.1 = .inject)
  { o with mode := m.1, bcause := m.2, settle := settle, start := if restart then 0 else o.start,
           injecting := injects m,
           measured := entry || (o.measured && decide (m.1 ≠ .blind)),
           lam := if m.1 = .blind then 0 else if entry then o.seed else o.lam, bemf := if m.1 = .emf then o.bemf else 0,
           tq := if m.1 = .blind then 0 else o.tq }

/-! ## Estimates (R268, R274, R276, R279) -/

/-- A difference of angles wrapped into −32,768 to 32,767 (R274). -/
def wrap16 (i : Int) : Int := (i + 32768).fmod 65536 - 32768

/-- λu from θ and a measured θr: from the nearest cycle at entry, carried through whole cycles after (R268, R274). -/
def nextLam (theta rotor : BitVec 16) (o : ObsBank) : Int :=
  let d : Int := (theta.toNat : Int) - (rotor.toNat : Int)
  if o.measured then o.lam + wrap16 (d - o.lam) else wrap16 d

/-- Torque current (R268). -/
def torqueCurrent (m : Nat) (lam : Int) : Int :=
  divRound (m * sinQ (BitVec.ofInt 16 lam)) 4611686018427387904

/-- Angle of the vector (a, b) in the convention of R225, a along the sine and b along the cosine, by bits (R279). -/
def vecAngle (a b : Int) : BitVec 16 :=
  let rec go : Nat → Nat → Nat → Nat
    | 0, _, r => r
    | k + 1, w, r =>
      let t := r + w
      -- a cos t − b sin t ≥ 0 as long as t has not passed the angle within the first quadrant
      go k (w / 2) (if 0 ≤ (a.natAbs : Int) * sinQuarter (16384 - t) 16384 - (b.natAbs : Int) * sinQuarter t 16384
        then t else r)
  let q := if a = 0 ∧ b = 0 then 0 else if b = 0 then 16384 else go 14 8192 0
  if 0 ≤ a then (if 0 ≤ b then BitVec.ofNat 16 q else BitVec.ofNat 16 (32768 - q))
  else (if b < 0 then BitVec.ofNat 16 (32768 + q) else BitVec.ofNat 16 (65536 - q))

/-- Back-EMF of a phase in µV: applied voltage (loop units), current and its change in mA, period P (R279). -/
def phaseEmf (c : ObsCfg) (va i di : Int) (p : Nat) : Int :=
  va * 1000000 / loopVolt - c.rph * i - (c.lph * di * 480000).fdiv p

/-- The estimates of a period (R268, R276, R279): θ, the rotor angle measured under injection if it was, applied
voltages and currents, effective magnitude. -/
def ObsBank.estimate (c : ObsCfg) (theta rotor : BitVec 16) (measured : Bool) (vA vB iA iB : Int) (p m : Nat)
    (o : ObsBank) : ObsBank :=
  let d : Int := wrap16 ((theta.toNat : Int) - (rotor.toNat : Int))
  let o := { o with seed := if measured then d else o.seed }
  match o.mode with
  | .blind =>
    { o with rang := theta, lam := 0, tq := 0, bemf := 0, emfA := 0, emfB := 0, measured := false, lastA := iA,
             lastB := iB }
  | .inject =>
    let lam := if measured then nextLam theta rotor o else o.lam
    { o with rang := BitVec.ofInt 16 ((theta.toNat : Int) - lam), lam := lam, measured := o.measured || measured,
             tq := torqueCurrent m lam, bemf := 0, emfA := 0, emfB := 0, lastA := iA, lastB := iB }
  | .emf =>
    let ea := phaseEmf c vA iA (iA - o.lastA) p
    let eb := phaseEmf c vB iB (iB - o.lastB) p
    let rot := vecAngle ea eb - 16384
    let lam := nextLam theta rot o
    { o with rang := rot, lam := lam, measured := true, tq := torqueCurrent m lam,
             bemf := (isqrt (ea.natAbs ^ 2 + eb.natAbs ^ 2) + 50000) / 100000, emfA := divRound ea 100000,
             emfB := divRound eb 100000, lastA := iA, lastB := iB }

/-- λ of R268. -/
def ObsBank.lang (o : ObsBank) : Int := max (-32767) (min 32767 o.lam)

/-! ## Stall and slip (R282 to R284, R287) -/

/-- The stall count at a period centre; `ang` the interpolated angle (R282, R284). -/
def ObsBank.judgeStall (c : ObsCfg) (ang : Word) (o : ObsBank) : ObsBank :=
  let q := ang.extractLsb' 30 2
  let up := decide (c.stallth < o.lam.natAbs) && decide (q ≠ o.lastQ)
  let n := if o.mode = .blind then 0
    else if o.settle then o.scount
    else if o.lam.natAbs ≤ c.stallth then 0
    else if up then o.scount + 1 else o.scount
  let rise := decide (o.scount < n) && decide (c.stallcnt ≤ n)
  { o with scount := n, lastQ := q, stallEv := o.stallEv || rise,
           latchAngle := if rise then ang else o.latchAngle, latchLam := if rise then o.lam else o.latchLam }

/-- The slip judgement at standstill in INJECT; every centre at which |λu| is 16,384 or less lets it act again (R287). -/
def ObsBank.judgeSlip (vff : Int) (o : ObsBank) : ObsBank :=
  if o.lam.natAbs ≤ 16384 then { o with slipUp := false }
  else if o.mode = .inject ∧ vff = 0 then { o with slipEv := o.slipEv || !o.slipUp, slipUp := true }
  else o

/-! ## Load-angle regulation and load-adaptive current (R297, R247) -/

/-- The retard of a period, from its own conditions and the result of the period before, and whether it displaces the current
(R269, R297, R298). -/
def ObsBank.regulate (c : ObsCfg) (permit : Bool) (vff : Int) (o : ObsBank) : ObsBank :=
  if permit ∧ vff ≠ 0 ∧ o.mode ≠ .blind ∧ o.settle = false then
    let x := vff.sign * o.lam - c.lart
    let r := (min (max 0 x) c.larmax).toNat
    { o with retard := r, laract := decide (r ≠ 0), larsatEv := o.larsatEv || decide (c.larmax < x) }
  else { o with retard := o.retard - 64, laract := decide (64 < o.retard) }

/-- The load-adaptive factor after a period centre, for the next period: restored at once (R247, R269); the last centre of a
tick decides a fall. -/
def ObsBank.restoreF (c : ObsCfg) (permit : Bool) (o : ObsBank) : ObsBank :=
  let l := o.lang.natAbs
  { o with lacF := if permit = false ∨ o.mode = .blind ∨ c.lahigh < l then 32768 else o.lacF,
           lacBelow := decide (l < c.lalow) }

/-- The fall of the factor at a tick edge (R247). -/
def ObsBank.lowerF (c : ObsCfg) (permit : Bool) (o : ObsBank) : ObsBank :=
  if permit ∧ o.mode ≠ .blind ∧ o.lacBelow then { o with lacF := max c.lacmin (o.lacF - c.lacstep) } else o

/-! ## Torque ripple and learning (R230, R231, R280) -/

/-- Sums of R280 over a period. -/
def ObsBank.addRipple (o : ObsBank) : ObsBank :=
  if o.mode = .emf ∧ o.settle = false then
    let t := o.tq
    { o with cnt := o.cnt + 1,
             sums := #v[o.sums[0] + t, o.sums[1] + t * sinQ (3 * o.rang), o.sums[2] + t * cosQ (3 * o.rang),
                        o.sums[3] + t * sinQ (5 * o.rang), o.sums[4] + t * cosQ (5 * o.rang)] }
  else o

/-- Components ρ3s, ρ3c, ρ5s, ρ5c of the tick as Q1.15 (R280). -/
def ObsBank.ripple (o : ObsBank) : Vector (BitVec 16) 4 :=
  let q (x : Int) : BitVec 16 :=
    if o.sums[0] < 25 * (o.cnt : Int) ∨ o.cnt = 0 then 0
    else BitVec.ofInt 16 (max (-32768) (min 32767 ((x * o.cnt).tdiv (o.sums[0] * 140737488355328))))
  #v[q o.sums[1], q o.sums[2], q o.sums[3], q o.sums[4]]

/-- Coefficients whose magnitude has reached HLMAX (R231). -/
def atHlmax (hlmax : Nat) (h : Vector (BitVec 16) 4) : BitVec 4 :=
  let at_ (i : Fin 4) : Bool := decide (hlmax ≤ h[i].toInt.natAbs)
  BitVec.ofBool (at_ 3) ++ BitVec.ofBool (at_ 2) ++ BitVec.ofBool (at_ 1) ++ BitVec.ofBool (at_ 0)

/-- New coefficients, learned, set, cleared or delivered, and whether one newly reaches HLMAX: one that stood there has to
leave it first (R231). -/
def ObsBank.setHarm (hlmax : Nat) (h : Vector (BitVec 16) 4) (o : ObsBank) : ObsBank × Bool :=
  let lim := atHlmax hlmax h
  ({ o with harm := h, hlim := lim }, decide (lim &&& ~~~(o.hlim &&& atHlmax hlmax o.harm) ≠ 0))

/-- Learning at a tick edge when R230 allows it, and whether a coefficient newly reaches the limit (R231). -/
def ObsBank.learn (c : ObsCfg) (ok : Bool) (o : ObsBank) : ObsBank × Bool :=
  let r := o.ripple
  let o := { o with rho := r, sums := Vector.replicate 5 0, cnt := 0 }
  if !ok then (o, false)
  else o.setHarm c.hlmax (Vector.ofFn fun i : Fin 4 => harmStep o.harm[i] r[i] c.hlrate c.hlmax)

/-! ## Records (R281) -/

/-- Code of OMODE. -/
def OMode.code : OMode → BitVec 2
  | .blind => 0
  | .inject => 1
  | .emf => 2

/-- The three record words (R281); `phsum` the phase fault bits. -/
def ObsBank.record (phsum : Byte) (o : ObsBank) : Word × Word × Word :=
  (BitVec.ofInt 16 o.lang ++ BitVec.ofNat 16 o.bemf,
   o.rang ++ BitVec.ofNat 8 (min 255 o.scount) ++ BitVec.ofBool o.settle ++ o.bcause ++ 0#1
     ++ BitVec.ofBool o.laract ++ o.mode.code,
   BitVec.ofInt 16 o.tq ++ 0#4 ++ BitVec.ofBool o.larsatEv ++ BitVec.ofBool o.injsk ++ BitVec.ofBool o.slipEv
     ++ BitVec.ofBool o.stallEv ++ phsum)

/-- The event bits of a record cover one tick (R281). -/
def ObsBank.clearEvents (o : ObsBank) : ObsBank :=
  { o with stallEv := false, slipEv := false, injsk := false, larsatEv := false }

/-! ## Homing arithmetic (R293, R294) -/

/-- Position of the latched centre: the latched angle unwrapped next to an anchor position (R293). -/
def unwrapAngle (ang : Word) (anchor : Int) : Int :=
  anchor + ((ang.toNat : Int) * 4096 - anchor + 8796093022208).fmod 17592186044416 - 8796093022208

/-- HOMEPOS = pd − λu / 16 to the nearest microstep (R293). -/
def homePos (pd lam : Int) : Int := divRound (pd - lam * 268435456) 4294967296

/-- Cycle correction n = round((HOMEPOS − pF) / 4096); a tie goes away from the stop, `stopUp` that the stop lies in
the positive direction (R293). -/
def cycleCorrection (home frozen : Int) (stopUp : Bool) : Int :=
  let d := home * oneStep - frozen
  if stopUp then -(divRound (-d) 17592186044416) else divRound d 17592186044416

/-- The homing shift D of R294. -/
def homingShift (hpos home : Int) : Int := 4096 * divRound (hpos - home) 4096

/-- Code of HSTATE (R296). -/
def HState.code : HState → BitVec 3
  | .idle => 0
  | .seek => 1
  | .contact => 2
  | .backoff => 3
  | .done => 4
  | .fail => 5

/-- HOMESTAT (R296). -/
def ObsNode.homestat (o : ObsNode) : Word :=
  0#20 ++ o.hcause ++ 0#3 ++ BitVec.ofBool o.probe ++ 0#1 ++ o.hstate.code

end Sys2Proof.Machine
end

