-- ==== Sys2Proof/Machine/Operands.lean ====
section
/-! DEFINITION. Operand forms of the block: parameter identifiers, their ranges, defaults, boundaries and places
(05_command_set.md R140 to R142 and the parameter tables of every chapter), target codes (R138) and the sparse
stores that hold parameter words. -/
namespace Sys2Proof.Machine

/-! ## Sparse stores: lists of (key, value), keys strictly rising, no entry equal to the key's default -/

/-- Reads a key, default `d`. -/
def cellGet {α : Type} (d : α) (k : Nat) : List (Nat × α) → α
  | [] => d
  | (k', v) :: r => if k = k' then v else if k < k' then d else cellGet d k r

/-- Writes a key in canonical form: writing the default removes the entry. -/
def cellSet {α : Type} [DecidableEq α] (d : α) (k : Nat) (v : α) : List (Nat × α) → List (Nat × α)
  | [] => if v = d then [] else [(k, v)]
  | (k', v') :: r =>
    if k < k' then (if v = d then (k', v') :: r else (k, v) :: (k', v') :: r)
    else if k = k' then (if v = d then r else (k, v) :: r)
    else (k', v') :: cellSet d k v r

/-- Canonical form of a store from key `lo` on, the default of key k being `d k`. -/
def cellsWf {α : Type} [DecidableEq α] (d : Nat → α) (lo : Nat) : List (Nat × α) → Bool
  | [] => true
  | (k, v) :: r => decide (lo ≤ k) && decide (v ≠ d k) && cellsWf d (k + 1) r

/-! ## Parameters -/

/-- What a parameter belongs to (R141): `conv` a bank under level 0x6, `aux` the auxiliary converters. -/
inductive Scope where
  | node | bank | axis | phase | fb | emu | conv | aux | memPort
  deriving DecidableEq, Repr

/-- Access and boundary (R82, R92). -/
inductive Access where
  | rw | tick | packet | period | frame
  deriving DecidableEq, Repr

/-- One parameter: identifier, width, scope, whether the bank holds it, access, mask of its defined bits, default and
range of each word (after the mask, R16). -/
structure PDef where
  ident : Nat
  width : Nat
  scope : Scope
  bankHeld : Bool
  acc : Access
  mask : Nat → Nat
  dflt : Nat → Nat
  ok : Nat → Nat → Bool

/-- A single-word parameter. -/
def word1 (ident : Nat) (scope : Scope) (bankHeld : Bool) (acc : Access) (mask dflt : Nat) (ok : Nat → Bool) : PDef :=
  ⟨ident, 1, scope, bankHeld, acc, fun _ => mask, fun _ => dflt, fun _ v => ok v⟩

/-- Field [lo + n − 1 : lo] of a number. -/
def fieldN (v lo n : Nat) : Nat := v / 2 ^ lo % 2 ^ n

/-- Value in a range. -/
def within (lo hi v : Nat) : Bool := decide (lo ≤ v ∧ v ≤ hi)

/-- A current code: 0, or 50 to 3000 (R260). -/
def codeOk (v : Nat) : Bool := decide (v = 0) || within 50 3000 v

/-- All bits of a word. -/
def allBits : Nat := 0xffffffff

/-- Motion engine, follower and stream parameters (R162, R218). -/
def motionParams : List PDef := [
  word1 0x3000 .axis false .tick allBits 13107200 (within 64 1310720000),
  word1 0x3001 .axis false .tick allBits 1024000 (within 1 4294967295),
  word1 0x3002 .axis false .tick allBits 0 (fun _ => true),
  word1 0x3003 .axis false .tick allBits 10000 (fun _ => true),
  word1 0x3004 .axis false .tick allBits 20480000 (within 1 4294967295),
  word1 0x3005 .axis false .tick 0x7 0 (fun _ => true),
  word1 0x3006 .axis false .tick 0x3 0 (fun _ => true),
  ⟨0x3100, 2, .axis, false, .tick, fun _ => allBits, fun w => if w = 0 then 0 else 0xffff8000, fun _ _ => true⟩,
  ⟨0x3101, 2, .axis, false, .tick, fun _ => allBits, fun w => if w = 0 then 0xffffffff else 0x7fff, fun _ _ => true⟩,
  word1 0x3102 .axis false .tick 0x1 0 (fun _ => true),
  word1 0x3110 .axis false .tick 0xff1f0f07 0x01000000 (fun v => decide (fieldN v 24 8 ≠ 0 ∧ fieldN v 16 5 < 24)),
  word1 0x3200 .axis false .tick 0x000f1f0b 0x800
    (fun v => decide (fieldN v 16 4 ≤ 8 ∧ fieldN v 8 5 ≤ 18 ∧ fieldN v 0 2 ≠ 3)),
  word1 0x3201 .axis false .tick allBits 64 (within 1 1024),
  word1 0x3300 .axis false .tick 0x03ff83ff 0x02000040
    (fun v => within 1 512 (fieldN v 16 10) && within 1 512 (fieldN v 0 10)),
  word1 0x3301 .axis false .tick 0x11f 0x100
    (fun v => if fieldN v 8 1 = 0 then decide (fieldN v 0 5 < 24) else decide (fieldN v 0 5 < 8)),
  word1 0x3302 .axis false .tick allBits 1 (fun _ => true),
  word1 0x3303 .axis false .tick allBits 1 (within 1 2147483647),
  word1 0x3304 .axis false .tick allBits 0 (within 0 2147483647),
  word1 0x3310 .axis false .tick 0xff 0xff (fun _ => true),
  word1 0x3311 .axis false .tick 0xffffff 0x492449 (fun _ => true)]

/-- Current and observer parameters of an axis and its phases (R260, R261, R299). -/
def currentParams : List PDef := [
  word1 0x3400 .axis false .tick allBits 500 codeOk,
  word1 0x3401 .axis false .tick allBits 250 codeOk,
  word1 0x3402 .axis false .tick allBits 0 codeOk,
  word1 0x3403 .axis false .tick allBits 200 (within 0 65535),
  word1 0x3404 .axis false .tick allBits 50 (within 1 3000),
  word1 0x3405 .axis false .tick allBits 500 codeOk,
  word1 0x3406 .axis false .tick 0x1 0 (fun _ => true),
  word1 0x3410 .axis true .packet allBits 2731 (within 0 16384),
  word1 0x3411 .axis true .packet allBits 5461 (within 0 16384),
  word1 0x3412 .axis true .packet allBits 16384 (within 3277 32768),
  word1 0x3413 .axis true .packet allBits 33 (within 1 32768),
  word1 0x3414 .axis true .packet 0xffff0f31 0x06660a30
    (fun v => within 0 6554 (fieldN v 16 16) && within 4 15 (fieldN v 8 4)),
  word1 0x3415 .axis true .packet allBits 0 (within 0 65535),
  word1 0x3500 .axis false .tick 0xffff001f 0x8 (fun v => decide (fieldN v 0 2 ≠ 3)),
  word1 0x3501 .axis true .packet allBits 102400 (within 16384 1048576),
  word1 0x3502 .axis true .packet allBits 1500 (within 0 65535),
  word1 0x3503 .axis true .packet allBits 4000 (within 1 65535),
  word1 0x3504 .axis true .packet 0xffff00ff 0x31c70002
    (fun v => within 1 32767 (fieldN v 16 16) && within 1 255 (fieldN v 0 8)),
  word1 0x3505 .axis true .packet allBits 0x20004000
    (fun v => within 0 16384 (fieldN v 16 16) && within 0 32767 (fieldN v 0 16)),
  word1 0x3600 .axis false .tick allBits 0xffec0000
    (fun v => within 655360 1310720000 v || within 655360 1310720000 (4294967296 - v)),
  word1 0x3601 .axis false .tick allBits 250 (within 50 3000),
  word1 0x3602 .axis false .tick allBits 4096 (within 0 2147483647),
  ⟨0x3603, 2, .axis, false, .tick, fun _ => allBits, fun _ => 0, fun _ _ => true⟩,
  word1 0x3604 .axis false .tick allBits 409600 (within 1 2147483647),
  word1 0x4000 .phase true .packet allBits 10240 (within 0 65535),
  word1 0x4001 .phase true .packet allBits 2560 (within 0 65535),
  word1 0x4002 .phase true .packet allBits 0 (within 0 65535),
  word1 0x4003 .phase true .packet 0x1 1 (fun _ => true),
  word1 0x4004 .phase true .packet allBits 0x004003e8
    (fun v => decide (fieldN v 16 16 ≠ 0 ∧ fieldN v 0 16 ≠ 0)),
  ⟨0x4100, 128, .phase, true, .rw, fun _ => allBits, fun j => (sineWord j).toNat, fun _ _ => true⟩]

/-- Bank parameters (R300, R331, R365) and converter parameters (R392). -/
def bankParams : List PDef := [
  word1 0x2000 .bank true .period allBits 12000 (fun v => [24000, 12000, 8000, 6000, 4800].contains v),
  word1 0x2001 .bank true .period 0xff 0
    (fun v => decide (fieldN v 0 2 ≠ 3 ∧ fieldN v 2 2 ≠ 3 ∧ fieldN v 4 2 ≠ 3 ∧ fieldN v 6 2 ≠ 3)),
  ⟨0x2002, 16, .bank, true, .period, fun _ => 0x800001ff, fun _ => 0x30, fun _ v => within 24 480 (fieldN v 0 9)⟩,
  ⟨0x2003, 16, .bank, true, .period, fun _ => 0xfffff, fun _ => 0, fun _ _ => true⟩,
  word1 0x2400 .bank true .packet 0x1 0 (fun _ => true),
  ⟨0x2100, 16, .bank, true, .packet, fun _ => 0xf0f, fun _ => 0x307, fun _ _ => true⟩,
  word1 0x2101 .bank true .packet 0xffffff07 0x48783203
    (fun v => within 48 192 (fieldN v 24 8) && within 90 150 (fieldN v 16 8) && decide (fieldN v 8 8 ≠ 0 ∧ fieldN v 0 3 ≠ 0)),
  word1 0x2200 .bank true .packet 0xffff00ff 0x03c00030
    (fun v => within 240 1440 (fieldN v 16 16) && within 8 240 (fieldN v 0 8)),
  word1 0x2300 .bank true .packet 0x3 0x3 (fun _ => true),
  ⟨0x6000, 3, .conv, true, .packet, fun _ => 0x8000ffff, fun _ => 0,
    fun _ v => within 0 11999 (fieldN v 0 16) || within 53536 65535 (fieldN v 0 16)⟩,
  ⟨0x6001, 4, .conv, true, .packet, fun _ => 0x3ffff, fun _ => 0, fun _ _ => true⟩,
  word1 0x6100 .conv false .rw 0x1 0 (fun _ => true),
  ⟨0x6101, 8, .conv, false, .rw, fun w => if w % 2 = 0 then 0xc00000ff else allBits, fun _ => 0, fun _ _ => true⟩,
  word1 0x6800 .aux false .frame allBits 0x03e80001
    (fun v => decide (fieldN v 16 16 ≠ 0 ∧ fieldN v 0 6 ≠ 0 ∧ fieldN v 8 3 < 6)),
  ⟨0x6801, 32, .aux, false, .frame, fun _ => 0xf00000ff, fun _ => 0, fun _ v => decide (fieldN v 30 2 ≠ 3)⟩,
  word1 0x6900 .aux false .rw 0x1 0 (fun _ => true),
  ⟨0x6901, 8, .aux, false, .rw, fun w => if w % 2 = 0 then 0xc00000ff else allBits, fun _ => 0, fun _ _ => true⟩]

/-- Node parameters (R262, R442, R460, R479). -/
def nodeParams : List PDef := [
  word1 0x1100 .node false .tick allBits 40 (within 10 400),
  word1 0x1200 .node false .tick 0x7f 0xa (within 1 64),
  word1 0x1300 .node false .tick 0xf 0x5 (within 2 10),
  word1 0x1400 .node false .tick 0xffff000f 0x01f4000b (fun v => within 10 5000 (fieldN v 16 16)),
  word1 0x1800 .node false .tick 0xffffff03 0x0bb80a00
    (fun v => within 2500 3600 (fieldN v 16 16) && within 1 50 (fieldN v 8 8) && decide (fieldN v 0 2 ≠ 3))]

/-- Feedback and emulation parameters (R416). The channel and speed words take effect at the next 240 MHz sample, which
is the write itself here; the serial and emulation words wait for their own boundary. -/
def feedbackParams : List PDef := [
  word1 0x5000 .fb false .rw 0x071f0007 0x02000000 (fun v => decide (fieldN v 0 3 < 5)),
  word1 0x5001 .fb false .rw allBits 0x040003e8 (fun v => within 1 4194303 (fieldN v 0 24)),
  word1 0x5002 .fb false .rw allBits 0x80000000 (fun _ => true),
  word1 0x5003 .fb false .rw allBits 0x7fffffff (fun _ => true),
  word1 0x5100 .fb false .rw 0xffff000f 0x00640000 (fun v => within 1 1000 (fieldN v 16 16) && within 0 6 (fieldN v 0 4)),
  word1 0x5200 .fb false .frame allBits 0x17002000
    (fun v => within 11 255 (fieldN v 24 8) && within 0 47 (fieldN v 16 8) && within 8 64 (fieldN v 8 8)),
  word1 0x5201 .fb false .frame 0xffffff01 0x0018ff01
    (fun v => within 0 63 (fieldN v 24 8) && within 1 32 (fieldN v 16 8)
      && (within 0 63 (fieldN v 8 8) || decide (fieldN v 8 8 = 255))),
  word1 0x5202 .fb false .frame 0xffff1f01 0 (fun v => decide (fieldN v 8 5 = 0) || within 3 16 (fieldN v 8 5)),
  word1 0x5203 .fb false .frame 0xffff003f 0x14 (fun v => within 1 48 (fieldN v 0 6)),
  word1 0x5204 .fb false .frame 0xffff000f 0x00100000 (fun _ => true),
  word1 0x5800 .emu false .frame 0xe11fffff 0x3e7
    (fun v => decide (if fieldN v 24 1 = 0 then fieldN v 16 5 < 24 else fieldN v 16 5 < 8)),
  word1 0x5801 .emu false .frame allBits 204800 (within 1 4294967295),
  word1 0x5802 .emu false .frame allBits 24 (within 24 65535)]

/-- A format word without the lane check, which needs the applied `XWIDTH` (R489). -/
def formatShape (v : Nat) : Bool := decide (fieldN v 14 2 ≠ 3)

/-- Memory-port parameters (R508). -/
def memParams : List PDef := [
  word1 0x7000 .memPort false .frame 0xff03000f 0x10000000
    (fun v => within 4 255 (fieldN v 24 8) && decide (fieldN v 16 2 ≠ 3)),
  word1 0x7001 .memPort false .frame 0xfffff 0x43210 (fun v => decide (fieldN v 16 4 ≠ 0)),
  word1 0x7100 .memPort false .frame 0xfffff001 0 (fun _ => true),
  word1 0x7101 .memPort false .frame 0xfffffff0 0x03004000 formatShape,
  word1 0x7200 .memPort false .frame allBits 0x06020588 (fun v => within 4 10 (fieldN v 4 4)),
  word1 0x7201 .memPort false .frame 0xfffffff0 0x4000 formatShape,
  word1 0x7202 .memPort false .frame allBits 0x0fa00a14
    (fun v => within 1 65535 (fieldN v 16 16) && within 1 255 (fieldN v 8 8) && within 1 255 (fieldN v 0 8))]

/-- Counter, GPIO and pair parameters, on the node target (R548, R555, R569). -/
def nodeParams2 : List PDef := [
  word1 0x1600 .node false .tick 0xf33 0 (fun v => decide (fieldN v 4 2 ≠ 3)),
  word1 0x1601 .node false .tick allBits 24000 (within 256 16777215),
  word1 0x1602 .node false .tick 0x800fffff 0xf4240 (fun v => within 1 1000000 (fieldN v 0 20)),
  ⟨0x1700, 2, .node, false, .tick, fun _ => allBits, fun _ => 0,
    fun _ v => (List.range 8).all fun i => decide (fieldN v (4 * i) 4 ≤ 5)⟩,
  word1 0x1701 .node false .tick allBits 0 (fun _ => true),
  word1 0x1702 .node false .tick allBits 0 (fun v => (List.range 16).all fun i => decide (fieldN v (2 * i) 2 ≠ 3)),
  word1 0x1900 .node false .tick 0x1 0 (fun _ => true)]

/-- All parameters that can be written. -/
def allParams : List PDef :=
  nodeParams ++ nodeParams2 ++ bankParams ++ motionParams ++ currentParams ++ feedbackParams ++ memParams

/-- A live parameter: identifier, width, scope, and whether the bank holds it (R105, R106, R163, R219, R262, R263, R301,
R417, R461). -/
structure LDef where
  ident : Nat
  width : Nat
  scope : Scope
  bankHeld : Bool

/-- The live group. -/
def liveParams : List LDef := [
  ⟨0x1f00, 1, .node, false⟩, ⟨0x1f01, 1, .node, false⟩, ⟨0x1f02, 1, .node, false⟩, ⟨0x1f10, 1, .node, false⟩,
  ⟨0x1f11, 1, .node, false⟩, ⟨0x2f00, 1, .bank, false⟩, ⟨0x2f01, 1, .bank, false⟩, ⟨0x2f02, 1, .bank, false⟩,
  ⟨0x2f30, 5, .bank, true⟩, ⟨0x3f00, 1, .axis, false⟩, ⟨0x3f01, 1, .axis, false⟩, ⟨0x3f02, 1, .axis, false⟩,
  ⟨0x3f03, 1, .axis, false⟩, ⟨0x3f04, 1, .axis, false⟩, ⟨0x3f10, 2, .axis, false⟩, ⟨0x3f11, 1, .axis, false⟩,
  ⟨0x3f12, 1, .axis, false⟩, ⟨0x3f13, 2, .axis, false⟩, ⟨0x3f14, 1, .axis, false⟩, ⟨0x3f15, 4, .axis, false⟩,
  ⟨0x3f20, 2, .axis, false⟩, ⟨0x3f21, 1, .axis, false⟩, ⟨0x3f22, 1, .axis, false⟩, ⟨0x3f23, 2, .axis, false⟩,
  ⟨0x3f24, 1, .axis, false⟩, ⟨0x3f25, 1, .axis, false⟩, ⟨0x3f26, 2, .axis, false⟩, ⟨0x3f28, 1, .axis, false⟩,
  ⟨0x3f40, 2, .axis, true⟩, ⟨0x3f50, 2, .axis, false⟩, ⟨0x3f51, 2, .axis, true⟩, ⟨0x5f00, 1, .fb, false⟩,
  ⟨0x5f01, 1, .fb, false⟩, ⟨0x5f02, 1, .fb, false⟩, ⟨0x5f03, 1, .fb, false⟩, ⟨0x5f04, 1, .fb, false⟩,
  ⟨0x5f05, 1, .fb, false⟩, ⟨0x5f08, 1, .emu, false⟩]

/-- Parameter of an identifier. -/
def findParam (ident : Nat) : Option PDef := allParams.find? fun d => d.ident = ident

/-- Live parameter of an identifier. -/
def findLive (ident : Nat) : Option LDef := liveParams.find? fun d => d.ident = ident

/-- Default of the word a key names; 0 for a key that names none. -/
def keyDefault (key : Nat) : Word :=
  match findParam (key / 256 % 65536) with
  | some d => BitVec.ofNat 32 (d.dflt (key % 256))
  | none => 0

/-- Key of word w of a parameter of a unit (R140). -/
def keyOf (unit ident w : Nat) : Nat := unit * 16777216 + ident * 256 + w

/-! ## Targets (R138, R540) -/

/-- What a target code names. Bank, axis, phase and stream codes carry the model's numbers: 6 to 11 and 24 to 47 are the
partner's. -/
inductive Target where
  | node | bank (b : BankId) | axis (n : AxisId) | phase (n : AxisId) (phB : Bool) | fb (n : FbId) | emu (n : EmuId)
  | aux | kiln | entry | memPort | nvStore | perf | gpio | mailboxEngine | hostLink
  | stream (n : AxisId)
  deriving DecidableEq, Repr

/-- Target of a code; `carried` that it names the partner's block (R540); none for a code R138 does not list. -/
def targetOf (carried : Bool) (code : Byte) : Option Target :=
  let c := code.toNat
  let da : Nat := if carried then 24 else 0
  let db : Nat := if carried then 6 else 0
  let ax (k : Nat) : AxisId := Fin.ofNat 48 (k + da)
  if c = 0 then some .node
  else if 0x10 ≤ c ∧ c ≤ 0x15 then some (.bank (Fin.ofNat 12 (c - 0x10 + db)))
  else if 0x20 ≤ c ∧ c ≤ 0x37 then some (.axis (ax (c - 0x20)))
  else if 0x40 ≤ c ∧ c ≤ 0x57 then some (.phase (ax (c - 0x40)) false)
  else if 0x60 ≤ c ∧ c ≤ 0x77 then some (.phase (ax (c - 0x60)) true)
  else if 0x80 ≤ c ∧ c ≤ 0x87 then some (.fb (Fin.ofNat 8 (c - 0x80)))
  else if 0x88 ≤ c ∧ c ≤ 0x8b then some (.emu (Fin.ofNat 4 (c - 0x88)))
  else if c = 0x90 then some .aux
  else if c = 0x91 then some .kiln
  else if c = 0x92 then some .entry
  else if c = 0x93 then some .memPort
  else if c = 0x94 then some .nvStore
  else if c = 0x95 then some .perf
  else if c = 0x96 then some .gpio
  else if c = 0x97 then some .mailboxEngine
  else if c = 0x98 then some .hostLink
  else if 0xa0 ≤ c ∧ c ≤ 0xb7 then some (.stream (ax (c - 0xa0)))
  else none

/-- The code of R138 that names a target; the partner's blocks have the codes of the same places. -/
def Target.code : Target → Byte
  | .node => 0
  | .bank b => BitVec.ofNat 8 (0x10 + b.val % 6)
  | .axis n => BitVec.ofNat 8 (0x20 + n.val % 24)
  | .phase n false => BitVec.ofNat 8 (0x40 + n.val % 24)
  | .phase n true => BitVec.ofNat 8 (0x60 + n.val % 24)
  | .fb n => BitVec.ofNat 8 (0x80 + n.val)
  | .emu n => BitVec.ofNat 8 (0x88 + n.val)
  | .aux => 0x90
  | .kiln => 0x91
  | .entry => 0x92
  | .memPort => 0x93
  | .nvStore => 0x94
  | .perf => 0x95
  | .gpio => 0x96
  | .mailboxEngine => 0x97
  | .hostLink => 0x98
  | .stream n => BitVec.ofNat 8 (0xa0 + n.val % 24)

/-- Whether a scope accepts a target (R141). -/
def Scope.accepts : Scope → Target → Bool
  | .node, .node => true
  | .bank, .bank _ => true
  | .conv, .bank _ => true
  | .axis, .axis _ => true
  | .phase, .phase _ _ => true
  | .fb, .fb _ => true
  | .emu, .emu _ => true
  | .aux, .aux => true
  | .memPort, .memPort => true
  | _, _ => false

/-- The unit of a parameter reached through a target; ITABLE of either phase is one storage, phase A's (R261). -/
def unitOf (ident : Nat) : Target → Nat
  | .bank b => b.val
  | .axis n => n.val
  | .stream n => n.val
  | .phase n phB => 2 * n.val + (if phB ∧ ident ≠ 0x4100 then 1 else 0)
  | .fb n => n.val
  | .emu n => n.val
  | _ => 0

/-- The bank that a target lies in, if any (R118). -/
def Target.bank? : Target → Option BankId
  | .bank b => some b
  | .axis n => some ⟨n.val / 4, by omega⟩
  | .phase n _ => some ⟨n.val / 4, by omega⟩
  | .stream n => some ⟨n.val / 4, by omega⟩
  | _ => none

/-- Bank of an axis (R10). -/
def bankOf (n : AxisId) : BankId := ⟨n.val / 4, by omega⟩

/-- Position of an axis in its bank (R10). -/
def posOf (n : AxisId) : Pos := ⟨n.val % 4, by omega⟩

/-- Axis at a position of a bank (R10). -/
def axisAt (b : BankId) (p : Pos) : AxisId := ⟨4 * b.val + p.val, by omega⟩

/-- A format word within the applied `XWIDTH` code (R489): no phase has more lanes than are wired. -/
def formatOk (xwidth v : Nat) : Bool :=
  formatShape v && decide (fieldN v 22 2 ≤ xwidth + 1 ∧ fieldN v 20 2 ≤ xwidth + 1 ∧ fieldN v 18 2 ≤ xwidth + 1)

/-- A pair of words as a signed 64-bit number (R87). -/
def pairInt (lo hi : Word) : Int := (hi ++ lo : BitVec 64).toInt

/-- A word as a signed number. -/
def sgn (v : Nat) : Int := (BitVec.ofNat 32 v).toInt

/-- Whether a tag is one that bank entries carry: points 0 to 3 of converters 0 to 17 (R379). -/
def bankTagOk (t : Nat) : Bool := decide (fieldN t 5 1 = 1 ∧ fieldN t 0 5 < 18)

/-- Whether a tag is one that auxiliary entries carry: slots 0 to 31, first or second result (R379). -/
def auxTagOk (t : Nat) : Bool := decide (fieldN t 7 1 = 1 ∧ fieldN t 5 1 = 0)

/-- LLO of comparator i of QLIM or AQLIM does not exceed its LHI under the chosen signedness (R391). -/
def limitsOrdered (w : Nat → Nat) (i : Nat) : Bool :=
  let lo := fieldN (w (2 * i + 1)) 0 16
  let hi := fieldN (w (2 * i + 1)) 16 16
  if fieldN (w (2 * i)) 30 1 = 1 then decide ((BitVec.ofNat 16 lo).toInt ≤ (BitVec.ofNat 16 hi).toInt) else decide (lo ≤ hi)

/-- The first written word of QLIM or AQLIM that offends: a tag that the source cannot produce, or limits out of order
(R391). -/
def limitBad (tagOk : Nat → Bool) (w : Nat → Nat) (written : Nat → Bool) : Option Nat :=
  (List.range 8).find? fun k => written k &&
    ((decide (k % 2 = 0) && !tagOk (fieldN (w k) 0 8))
      || (!limitsOrdered w (k / 2) && (decide (k % 2 = 1) || !written (k + 1))))

/-- The first written word of TRGCFG whose enabled point lies closer than 192 clocks to another enabled point, point 0 at
offset 0 among them (R374). -/
def triggerBad (w : Nat → Nat) (written : Nat → Bool) : Option Nat :=
  let pt (i : Nat) : Option Int := if fieldN (w i) 31 1 = 1 then some (BitVec.ofNat 16 (fieldN (w i) 0 16)).toInt else none
  (List.range 3).find? fun k => written k && (match pt k with
    | some x => decide (x.natAbs < 192)
        || (List.range 3).any fun i => decide (i ≠ k) && ((pt i).any fun y => decide ((x - y).natAbs < 192))
    | none => false)

/-- The conditions among several staged values of one unit after a SET_PARAM of a parameter of one word or one pair; `w`
reads staged words by identifier and index with the write in place (R162, R183, R218, R260, R408, R416). -/
def crossOk (ident : Nat) (w : Nat → Nat → Nat) : Bool :=
  let pair (i : Nat) : Int := pairInt (BitVec.ofNat 32 (w i 0)) (BitVec.ofNat 32 (w i 1))
  let posOk (i : Nat) : Bool := validPos (BitVec.ofNat 32 (w i 0)) (BitVec.ofNat 32 (w i 1))
  if ident = 0x3100 ∨ ident = 0x3101 then posOk ident && decide (pair 0x3100 ≤ pair 0x3101)
  else if ident = 0x3603 then posOk ident
  else if ident = 0x3300 then decide (fieldN (w ident 0) 0 10 ≤ fieldN (w ident 0) 16 10)
  else if ident = 0x3410 ∨ ident = 0x3411 then decide (w 0x3410 0 ≤ w 0x3411 0)
  else if ident = 0x5002 ∨ ident = 0x5003 then decide (sgn (w 0x5002 0) ≤ sgn (w 0x5003 0))
  else if 0x5200 ≤ ident ∧ ident ≤ 0x5204 then
    let len := fieldN (w 0x5200 0) 8 8
    let room : Int := (len : Int) - fieldN (w 0x5202 0) 8 5
    let poslen := fieldN (w 0x5201 0) 16 8
    let err := fieldN (w 0x5201 0) 8 8
    decide ((fieldN (w 0x5201 0) 24 8 + poslen : Nat) ≤ room) && (decide (err = 255) || decide ((err : Int) < room))
      && decide (fieldN (w 0x5200 0) 16 8 + fieldN (w 0x5203 0) 0 6 ≤ 48) && decide (fieldN (w 0x5204 0) 0 4 < poslen)
  else true

/-- The word of the parameter that offends against the conditions among staged values, if any: the high word of a pair
where it is written, the word itself elsewhere (R139, R374, R391; log 65). -/
def crossBad (ident : Nat) (w : Nat → Nat → Nat) (written : Nat → Bool) : Option Nat :=
  if ident = 0x6000 then triggerBad (w ident) written
  else if ident = 0x6101 then limitBad bankTagOk (w ident) written
  else if ident = 0x6901 then limitBad auxTagOk (w ident) written
  else if crossOk ident w then none
  else some (if written 1 then 1 else 0)

end Sys2Proof.Machine
end

