-- ==== Sys2Proof/Machine/Ops.lean ====
section
/-! DEFINITION. The named operations over the state that every family shares: access to an axis, bank, block or mailbox,
parameters and their configuration views, counters, completion of commands, operations queued for a bank. -/
namespace Sys2Proof.Machine

/-! ## Access -/

/-- Changes one axis. -/
def State.modAxis (n : AxisId) (f : Axis → Axis) (s : State) : State :=
  { s with axes := s.axes.set n.val (f s.axes[n]) }

/-- Changes one bank. -/
def State.modBank (b : BankId) (f : Bank → Bank) (s : State) : State :=
  { s with banks := s.banks.set b.val (f s.banks[b]) }

/-- Registers of a fault block. -/
def State.block (s : State) (i : BlockId) : FBlock := s.blocks[i.idx]

/-- Changes the registers of a fault block. -/
def State.modBlock (i : BlockId) (f : FBlock → FBlock) (s : State) : State :=
  { s with blocks := s.blocks.set i.idx.val (f (s.block i)) }

/-- Changes one mailbox. -/
def State.modMb (m : MbId) (f : Mailbox → Mailbox) (s : State) : State :=
  { s with mbx := s.mbx.set m.val (f s.mbx[m]) }

/-- Changes one feedback channel. -/
def State.modFb (n : FbId) (f : FbChan → FbChan) (s : State) : State :=
  { s with fbs := s.fbs.set n.val (f s.fbs[n]) }

/-- Changes one emulation output. -/
def State.modEmu (n : EmuId) (f : Emu → Emu) (s : State) : State :=
  { s with emus := s.emus.set n.val (f s.emus[n]) }

/-- Applies a change for every element of a list in turn. -/
def State.each {α : Type} (l : List α) (f : α → State → State) (s : State) : State := l.foldl (fun t a => f a t) s

/-- All axes, all banks, all mailboxes. -/
def allAxes : List AxisId := List.finRange 48
/-- All banks. -/
def allBanks : List BankId := List.finRange 12
/-- All mailboxes. -/
def allMbs : List MbId := List.finRange 8
/-- The four positions of a bank. -/
def allPos : List Pos := List.finRange 4

/-- Whether a bank is present: one of the part's own, or the partner's while carried (R2, R4, R540). -/
def State.present (s : State) (b : BankId) : Bool :=
  if b.val < 6 then decide (b.val < s.part.nBanks) else s.pair.tbanks.getLsbD (b.val - 6)

/-- Whether the bank's link switches lead to this node (R536, R538, R542). -/
def State.attached (s : State) (b : BankId) : Bool := decide (6 ≤ b.val) || decide (s.pair.carry ≠ 2)

/-- Whether an axis is present (R4). -/
def State.axisPresent (s : State) (n : AxisId) : Bool := s.present (bankOf n)

/-- The present banks, in order. -/
def State.presentBanks (s : State) : List BankId := allBanks.filter s.present

/-- The present axes, in order. -/
def State.presentAxes (s : State) : List AxisId := allAxes.filter s.axisPresent

/-- The node sees the bank in RUN, SERVICE or SAFE, so that its registers can be reached (R116). -/
def State.linked (s : State) (b : BankId) : Bool :=
  let v := s.banks[b].view
  decide (v = .run ∨ v = .service ∨ v = .safe)

/-- The next free value (log 4). -/
def State.fresh (s : State) : Word × State := (Config.freeWord s.free, { s with free := s.free + 1 })

/-- Code of BSTATE (R37). -/
def BState.code : BState → BitVec 4
  | .unpowered => 0
  | .linking => 1
  | .run => 2
  | .service => 3
  | .orphan => 4
  | .safe => 5

/-- Code of the axis state as AXSTAT shows it (R178). -/
def AxState.code : AxState → BitVec 3
  | .off => 0
  | .standby => 1
  | .ramp => 2
  | .stopping => 3
  | .follow => 4
  | .frozen => 5

/-! ## Parameters (R91, R140) -/

/-- Reads a word of a store of parameter values. -/
def paramGet (l : List (Nat × Word)) (key : Nat) : Word := cellGet (keyDefault key) key l

/-- Writes a word of a store of parameter values. -/
def paramSet (key : Nat) (v : Word) (l : List (Nat × Word)) : List (Nat × Word) := cellSet (keyDefault key) key v l

/-- Stages a value (R91). -/
def Params.stage (key : Nat) (v : Word) (p : Params) : Params := { p with staged := paramSet key v p.staged }

/-- The applied value takes the staged value (R91). -/
def Params.applyKey (key : Nat) (p : Params) : Params :=
  { p with applied := paramSet key (paramGet p.staged key) p.applied }

/-- Stages and applies a value. -/
def Params.put (key : Nat) (v : Word) (p : Params) : Params :=
  { applied := paramSet key v p.applied, staged := paramSet key v p.staged }

/-- Merges two stores with disjoint keys in key order. -/
def mergeCells {α : Type} : List (Nat × α) → List (Nat × α) → List (Nat × α)
  | [], r => r
  | c :: l, r => (r.takeWhile fun q => decide (q.1 ≤ c.1)) ++ c :: mergeCells l (r.dropWhile fun q => decide (q.1 ≤ c.1))

/-- Every staged value whose key satisfies `p` applies (R92). -/
def Params.applyWhere (p : Nat → Bool) (q : Params) : Params :=
  { q with applied := mergeCells (q.applied.filter fun c => !p c.1) (q.staged.filter fun c => p c.1) }

/-- Every staged value whose key satisfies `p` is discarded (R91, R155). -/
def Params.discardWhere (p : Nat → Bool) (q : Params) : Params :=
  { q with staged := mergeCells (q.staged.filter fun c => !p c.1) (q.applied.filter fun c => p c.1) }

/-- Whether a staged value differs from its applied value under keys that satisfy `p` (R103, R323). -/
def Params.pendingWhere (p : Nat → Bool) (q : Params) : Bool :=
  decide ((q.staged.filter fun c => p c.1) ≠ (q.applied.filter fun c => p c.1))

/-- Identifier of a key. -/
def keyIdent (key : Nat) : Nat := key / 256 % 65536

/-- Unit of a key. -/
def keyUnit (key : Nat) : Nat := key / 16777216

/-- Access code of a key (R82, R92). -/
def keyAcc (key : Nat) : Access :=
  match findParam (keyIdent key) with
  | some d => d.acc
  | none => .rw

/-- Applied word of a parameter as the node holds it. -/
def State.pA (s : State) (unit ident w : Nat) : Nat := (paramGet s.nodeP.applied (keyOf unit ident w)).toNat

/-- Staged word of a parameter as the node holds it. -/
def State.pS (s : State) (unit ident w : Nat) : Nat := (paramGet s.nodeP.staged (keyOf unit ident w)).toNat

/-- Applied word of a parameter as the bank holds it. -/
def State.bA (s : State) (unit ident w : Nat) : Nat := (paramGet s.bankP.applied (keyOf unit ident w)).toNat

/-- Staged word of a parameter as the bank holds it. -/
def State.bS (s : State) (unit ident w : Nat) : Nat := (paramGet s.bankP.staged (keyOf unit ident w)).toNat

/-- Applied word as a bit vector. -/
def State.wA (s : State) (unit ident w : Nat) : Word := paramGet s.nodeP.applied (keyOf unit ident w)

/-- Applied word of the bank as a bit vector. -/
def State.wB (s : State) (unit ident w : Nat) : Word := paramGet s.bankP.applied (keyOf unit ident w)

/-! ## Configuration views -/

/-- Limits of an axis (R162). -/
def State.limitsOf (s : State) (n : AxisId) : Limits where
  vmax := s.pA n.val 0x3000 0
  acc := s.pA n.val 0x3001 0
  dec := s.pA n.val 0x3002 0
  jerk := s.pA n.val 0x3003 0

/-- Engine configuration of an axis. A carried axis takes its virtual bit alone as effective enable (R541). -/
def State.axisCfg (s : State) (n : AxisId) : AxisCfg :=
  let encfg := s.pA n.val 0x3005 0
  { lim := s.limitsOf n, qsdec := s.pA n.val 0x3004 0,
    enpol := decide (fieldN encfg 2 1 = 1), dismode := decide (fieldN encfg 1 1 = 1),
    ensrc := decide (fieldN encfg 0 1 = 1) && decide (n.val < 24),
    mode := BitVec.ofNat 2 (s.pA n.val 0x3006 0),
    slmin := pairInt (s.wA n.val 0x3100 0) (s.wA n.val 0x3100 1),
    slmax := pairInt (s.wA n.val 0x3101 0) (s.wA n.val 0x3101 1),
    slen := decide (s.pA n.val 0x3102 0 = 1) }

/-- Follower, stream and gearing configuration of an axis (R218). -/
def State.followCfg (s : State) (n : AxisId) : FollowCfg :=
  let sd := s.pA n.val 0x3200 0
  let q := s.pA n.val 0x3300 0
  let g := s.pA n.val 0x3301 0
  { smooth := fieldN sd 16 4, sdmult := sgn (s.pA n.val 0x3201 0), dirinv := decide (fieldN sd 3 1 = 1),
    edgeSel := BitVec.ofNat 2 (fieldN sd 0 2), squota := fieldN q 16 10, sprime := fieldN q 0 10,
    grpstop := decide (fieldN q 15 1 = 1), gkindFb := decide (fieldN g 8 1 = 1),
    gnumSrc := fieldN g 0 5, gnum := sgn (s.pA n.val 0x3302 0), gden := sgn (s.pA n.val 0x3303 0),
    laglim := sgn (s.pA n.val 0x3304 0) }

/-- Current configuration of an axis (R260). -/
def State.curCfg (s : State) (n : AxisId) : CurCfg where
  irun := s.pA n.val 0x3400 0
  ihold := s.pA n.val 0x3401 0
  iboost := s.pA n.val 0x3402 0
  holddly := s.pA n.val 0x3403 0
  islew := s.pA n.val 0x3404 0
  ibudget := s.pA n.val 0x3405 0
  lacen := decide (s.pA n.val 0x3406 0 = 1)

/-- Observer configuration of an axis as its bank holds it (R260, R299). -/
def State.obsCfg (s : State) (n : AxisId) : ObsCfg :=
  let st := s.bA n.val 0x3504 0
  let la := s.bA n.val 0x3505 0
  let cb := s.bA n.val 0x3414 0
  { vemf := s.bA n.val 0x3501 0, rph := s.bA n.val 0x3502 0, lph := s.bA n.val 0x3503 0,
    stallth := fieldN st 16 16, stallcnt := fieldN st 0 8, lart := fieldN la 16 16, larmax := fieldN la 0 16,
    lalow := s.bA n.val 0x3410 0, lahigh := s.bA n.val 0x3411 0, lacmin := s.bA n.val 0x3412 0,
    lacstep := s.bA n.val 0x3413 0, hlen := decide (fieldN cb 0 1 = 1), hlrate := fieldN cb 8 4, hlmax := fieldN cb 16 16,
    emfsrc := BitVec.ofNat 2 (fieldN cb 4 2), ke := s.bA n.val 0x3415 0 }

/-- Loop configuration of a phase as its bank holds it (R261). -/
def State.loopCfg (s : State) (n : AxisId) (phB : Bool) : LoopCfg :=
  let u := 2 * n.val + (if phB then 1 else 0)
  let t := s.bA u 0x4004 0
  { kp := s.bA u 0x4000 0, ki := s.bA u 0x4001 0, rff := s.bA u 0x4002 0, busff := decide (s.bA u 0x4003 0 = 1),
    trkcnt := fieldN t 16 16, trklim := fieldN t 0 16 }

/-! ## Counters (R553) -/

/-- Ports whose bytes are counted: 0 host link, 1 memory port, 2 mailbox engine, links of the node's own banks
downstream and upstream; 15 is no port (R553). -/
def portDn (b : BankId) : Nat := if b.val < 6 then 3 + b.val else 15
/-- Upstream port of a bank. -/
def portUp (b : BankId) : Nat := if b.val < 6 then 9 + b.val else 15

/-- Counts bytes at a port while a window runs, saturating (R553, R554). -/
def State.countBytes (port bytes : Nat) (s : State) : State :=
  if s.perf.window then
    let v : Vector Word 15 := s.perf.count.mapFinIdx fun i c _ =>
      if i = port then BitVec.ofNat 32 (min 4294967295 (c.toNat + bytes)) else c
    { s with perf := { s.perf with count := v } }
  else s

/-! ## Commands (R107 to R116) -/

/-- Header fields of the command under way (R108). -/
def Mailbox.abi (m : Mailbox) : BitVec 2 := m.copy[0].extractLsb' 30 2
/-- Payload count. -/
def Mailbox.count (m : Mailbox) : Nat := (m.copy[0].extractLsb' 24 6).toNat
/-- Target code. -/
def Mailbox.tcode (m : Mailbox) : Byte := m.copy[0].extractLsb' 10 8
/-- Opcode. -/
def Mailbox.opcode (m : Mailbox) : Nat := (m.copy[0].extractLsb' 0 10).toNat
/-- Payload word i. -/
def Mailbox.pay (m : Mailbox) (i : Nat) : Word := m.copy.toList.getD i 0

/-- State word of RSP0 over the echoes of the copied header (R109). -/
def rspHead (st : BitVec 2) (rcount : Nat) (hdr : Word) : Word := st ++ BitVec.ofNat 6 rcount ++ hdr.extractLsb' 0 24

/-- STATE of RSP0 (R109). -/
def Mailbox.state (m : Mailbox) : BitVec 2 := m.rsp[0].extractLsb' 30 2

/-- Response buffer of a completed command (R109, R114). -/
def rspOf (st : BitVec 2) (hdr : Word) (ws : List Word) : Vector Word 16 :=
  Vector.ofFn fun i : Fin 16 => if i.val = 0 then rspHead st (min 15 ws.length) hdr else ws.getD (i.val - 1) 0

/-- Completes a command in one fabric clock (R114, R119). -/
def Mailbox.finish (st : BitVec 2) (ws : List Word) (m : Mailbox) : Mailbox :=
  { m with rsp := rspOf st m.copy[0] ws, cirq := true, phase := .idle }

/-- Error codes of R143. -/
inductive ECode where
  | abi | length | opcode | absent | target | param | range | readonly | state | pending | changed | nolink | inuse
  | notopen | temp | nvfail | nofw | busy | halted | budget | image | timeout
  deriving DecidableEq, Repr

/-- Value of an error code (R143). -/
def ECode.val : ECode → BitVec 16
  | .abi => 0x01
  | .length => 0x02
  | .opcode => 0x03
  | .absent => 0x04
  | .target => 0x05
  | .param => 0x06
  | .range => 0x07
  | .readonly => 0x08
  | .state => 0x09
  | .pending => 0x0a
  | .changed => 0x0b
  | .nolink => 0x0c
  | .inuse => 0x0d
  | .notopen => 0x0e
  | .temp => 0x0f
  | .nvfail => 0x10
  | .nofw => 0x11
  | .busy => 0x12
  | .halted => 0x13
  | .budget => 0x14
  | .image => 0x15
  | .timeout => 0x16

/-- The node is in a debug halt: BOOT 3 without class 4 (R120, R324). -/
def State.debugHalted (s : State) : Bool := decide (s.boot = 3) && !s.haltC4

/-- The mailbox holds a command that has been taken and waits. -/
def Mailbox.taken (x : Mailbox) : Bool :=
  match x.phase with
  | .waiting _ => true
  | _ => false

/-- A command ends with a state and its words; they count at the engine's port (R114, R553). A taken command that ends
during a debug halt stays PENDING until the processor runs again (R120); one that has completed already, as where its own
effect halts the node by class 4, completes no second time. -/
def State.complete (m : MbId) (st : BitVec 2) (ws : List Word) (s : State) : State :=
  if s.mbx[m].phase = .idle then s
  else if s.debugHalted && s.mbx[m].taken then s.modMb m fun x => { x with phase := .ended st ws }
  else (s.modMb m (Mailbox.finish st ws)).countBytes 2 (4 * (1 + ws.length))

/-- A command completes DONE with its response words (R114). -/
def State.done (m : MbId) (ws : List Word) (s : State) : State := s.complete m 2 ws

/-- A command completes ERROR with its error word (R109). -/
def State.err (m : MbId) (e : ECode) (detail : Nat) (s : State) : State := s.complete m 3 [BitVec.ofNat 16 detail ++ e.val]

/-- A command that ended during a debug halt completes (R120). -/
def State.release (m : MbId) (s : State) : State :=
  match s.mbx[m].phase with
  | .ended st ws => s.complete m st ws
  | _ => s

/-- A taken command waits. -/
def State.wait (m : MbId) (w : Wait) (s : State) : State := s.modMb m fun x => { x with phase := .waiting w }

/-- Mailboxes whose taken command waits under a condition. -/
def State.waiters (s : State) (p : Wait → Bool) : List MbId :=
  allMbs.filter fun m => match s.mbx[m].phase with
    | .waiting w => p w
    | _ => false

/-! ## Operations for a bank (R33, R94) -/

/-- Queues a register operation behind the bank's others: its slots and the mailbox that waits for it. -/
def State.queueOp (b : BankId) (op : RegOp) (slots : Nat) (mb : Option MbId) (s : State) : State :=
  { s.modBank b (fun k => { k with ops := k.ops ++ [⟨op, slots, none, mb, s.opSeq, false, []⟩] }) with opSeq := s.opSeq + 1 }

/-- The node sends on a bank's link: it sends on its links, the bank is present and attached, and has its supply, for the
link of an unpowered bank carries no traffic (R26, R28, R538). -/
def State.sendsTo (s : State) (b : BankId) : Bool := s.links && s.present b && s.attached b && decide (s.banks[b].view ≠ .unpowered)

/-- A clear of a mirrored W1C field goes to the bank in the next packet with a free slot (R90). -/
def State.forwardClear (b : BankId) (reg : Nat) (mask : Word) (s : State) : State :=
  if s.sendsTo b then s.queueOp b (.clear reg mask) 1 none else s

/-- A BATCH waits for its flag (R95). -/
def Bank.batchReq (k : Bank) : Bool := !k.batches.isEmpty

/-! ## Integrity (R100 to R102) -/

/-- One bit of the reflected CRC-32 of R101. -/
def crcBit (c : Word) : Word := if c.getLsbD 0 then (c >>> 1) ^^^ 0xedb88320 else c >>> 1

/-- One byte of the CRC-32 of R101. -/
def crcByte (c : Word) (b : Byte) : Word :=
  crcBit (crcBit (crcBit (crcBit (crcBit (crcBit (crcBit (crcBit (c ^^^ b.setWidth 32))))))))

/-- CRC-32 of a list of bytes (R101). -/
def crc32 (l : List Byte) : Word := ~~~(l.foldl crcByte 0xffffffff)

/-- Bytes of a value, least significant first. -/
def bytesOf (n v : Nat) : List Byte := (List.range n).map fun i => BitVec.ofNat 8 (v / 256 ^ i)

/-- Eight-byte record of a covered word (R101). -/
def proofRecord (ident w : Nat) (v : Word) : List Byte := bytesOf 2 ident ++ bytesOf 2 w ++ bytesOf 4 v.toNat

/-- What a Proof covers (R100). -/
inductive ProofId where
  | node | bank (b : BankId) | axisN (n : AxisId) | axisB (n : AxisId)
  deriving DecidableEq, Repr

/-- Units of a parameter that a Proof covers. DESIGN CHOICE (log 80): the node Proof takes the converters of banks 0 to 5,
absent ones with their defaults, and of no carried bank. -/
def ProofId.units (d : PDef) : ProofId → List Nat
  | .node =>
    match d.scope with
    | .node => [0]
    | .aux => [0]
    | .memPort => [0]
    | .fb => List.range 8
    | .emu => List.range 4
    | .conv => List.range 6
    | _ => []
  | .bank b => if d.scope = .bank then [b.val] else []
  | .axisN n => if d.scope = .axis ∧ d.bankHeld = false then [n.val] else []
  | .axisB n =>
    if d.scope = .axis ∧ (d.bankHeld ∨ d.ident = 0x3004) then [n.val]
    else if d.scope = .phase then (if d.ident = 0x4100 then [2 * n.val] else [2 * n.val, 2 * n.val + 1])
    else []

/-- Parameters in ascending order of identifier. -/
def paramsByIdent : List PDef := allParams.mergeSort fun a b => decide (a.ident ≤ b.ident)

/-- Whether the Proof is computed over the bank's own values. -/
def ProofId.inBank : ProofId → Bool
  | .node => false
  | .axisN _ => false
  | _ => true

/-- The computed value of a Proof (R101): units in ascending order within an identifier. -/
def State.proofValue (s : State) (p : ProofId) : Word :=
  let store := if p.inBank then s.bankP.applied else s.nodeP.applied
  crc32 (paramsByIdent.flatMap fun d => (p.units d).flatMap fun u => (List.range d.width).flatMap fun w =>
    proofRecord d.ident w (paramGet store (keyOf u d.ident w)))

/-- Which Proofs own a parameter of a unit (R100); a parameter the node also copies to the bank lies in both halves. -/
def proofsOf (ident unit : Nat) : List ProofId :=
  if ident / 4096 = 2 then [.bank (Fin.ofNat 12 unit)]
  else if ident / 4096 = 3 then
    (if ident = 0x3004 then [.axisN (Fin.ofNat 48 unit), .axisB (Fin.ofNat 48 unit)]
     else match findParam ident with
       | some d => if d.bankHeld then [.axisB (Fin.ofNat 48 unit)] else [.axisN (Fin.ofNat 48 unit)]
       | none => [])
  else if ident / 4096 = 4 then [.axisB (Fin.ofNat 48 (unit / 2))]
  else [.node]

/-- Reads a Proof. -/
def Proofs.get (q : Proofs) : ProofId → Proof
  | .node => q.node
  | .bank b => q.bank[b]
  | .axisN n => q.axisN[n]
  | .axisB n => q.axisB[n]

/-- Changes a Proof. -/
def Proofs.mod (f : Proof → Proof) (q : Proofs) : ProofId → Proofs
  | .node => { q with node := f q.node }
  | .bank b => { q with bank := q.bank.set b.val (f q.bank[b]) }
  | .axisN n => { q with axisN := q.axisN.set n.val (f q.axisN[n]) }
  | .axisB n => { q with axisB := q.axisB.set n.val (f q.axisB[n]) }

/-- A Proof becomes OPEN; its reference reads 0 (R102, R106). -/
def Proof.opened (p : Proof) : Proof := { p with state := .open_, ref := 0, told := none }

/-- Changes a Proof of the state. -/
def State.modProof (i : ProofId) (f : Proof → Proof) (s : State) : State := { s with proofs := s.proofs.mod f i }

/-- The Proofs whose mismatch a block raises (R104). -/
def BlockId.proofs : BlockId → List ProofId
  | .node => [.node]
  | .bank b => [.bank b]
  | .axis n => [.axisN n, .axisB n]
  | _ => []

/-- An acknowledgement of classes reaches the Proofs whose mismatch was raised in one of them (R104). -/
def State.ackProofs (i : BlockId) (m : BitVec 4) (s : State) : State :=
  s.each i.proofs fun p t => t.modProof p fun q =>
    { q with told := q.told.filter fun c => !m.getLsbD c.toNat }

/-- Puts Proofs into OPEN; a commit scan that covers one of them has seen a covered write (R102, R103). -/
def State.openProofs (l : List ProofId) (s : State) : State :=
  let s1 := s.each l fun i t => t.modProof i Proof.opened
  { s1 with commits := s1.commits.map fun c =>
      let hit := l.any fun i => match i with
        | .node => c.node
        | .bank b => c.banks.contains b
        | .axisN n => c.axes.contains n
        | .axisB n => c.axes.contains n
      if c.started ∧ hit then { c with changed := true } else c }

/-! ## The real-time clock (R48) -/

/-- The real-time clock over the tick that ends: 1/32,768 s a count, 163,840 in 100,000 of a count to 50 µs. It is not locked
to the tick, and its rate is free within the 300 ppm of R585 (log 48). -/
def State.clockTick (s : State) : State :=
  let r := s.fresh
  let t := s.keep.rtcFrac + s.units * (163791 + r.1.toNat % 99)
  { r.2 with keep := { r.2.keep with rtc := r.2.keep.rtc + BitVec.ofNat 32 (t / 100000), rtcFrac := t % 100000 } }

/-- The real-time clock over a time that no tick counts, without power or without the reference clock: free (log 48). -/
def State.clockGap (s : State) : State :=
  let r := s.fresh
  { r.2 with keep := { r.2.keep with rtc := r.2.keep.rtc + r.1 } }

end Sys2Proof.Machine
end

