-- ==== Sys2Proof/Machine/Flags.lean ====
section
/-! DEFINITION. Status, fault and interrupt flags: raising, escalation, acknowledgement, reactions, nERR, nIRQ and the
fault log (16_faults.md R464 to R485). -/
namespace Sys2Proof.Machine

/-- Target code by which a block's faults are logged (R138, R478, R482). -/
def BlockId.tcode : BlockId → Byte
  | .node => 0x00
  | .hostLink => 0x98
  | .mailboxEngine => 0x97
  | .kiln => 0x91
  | .entry => 0x92
  | .memPort => 0x93
  | .nvStore => 0x94
  | .aux => 0x90
  | .fb n => BitVec.ofNat 8 (0x80 + n.val)
  | .emu n => BitVec.ofNat 8 (0x88 + n.val)
  | .bank b => BitVec.ofNat 8 (0x10 + b.val % 6)
  | .conv b => BitVec.ofNat 8 (0x10 + b.val % 6)
  | .axis n => BitVec.ofNat 8 (0x20 + n.val % 24)
  | .phase n false => BitVec.ofNat 8 (0x40 + n.val % 24)
  | .phase n true => BitVec.ofNat 8 (0x60 + n.val % 24)
  | .stream n => BitVec.ofNat 8 (0xa0 + n.val % 24)

/-- Whether a block is a converter group (R478, R482). -/
def BlockId.isConv : BlockId → Bool
  | .conv _ => true
  | _ => false

/-- Whether a block can be block-reset (R467, R474). -/
def BlockId.resettable : BlockId → Bool
  | .node => false
  | .hostLink => false
  | .mailboxEngine => false
  | .conv _ => false
  | _ => true

/-- The bank a block's severe fault forces safe; none for every other block (R473). -/
def BlockId.ownBank : BlockId → Option BankId
  | .bank b => some b
  | .conv b => some b
  | .axis n => some (bankOf n)
  | .phase n _ => some (bankOf n)
  | _ => none

/-- Class of a source, none where the bit holds no source (R484). -/
def classOf (p : Part) (i : BlockId) (bit : Nat) : Option Nat :=
  ((i.kind.sources p).find? fun q => q.1 = bit).map fun q => q.2

/-- Reaction code of the source at a status bit (R465, R466). -/
def FBlock.codeOf (f : FBlock) (bit : Nat) : Nat :=
  ((f.codes.toList.getD (bit / 8) 0).extractLsb' (3 * (bit % 8)) 3).toNat

/-- Word of four bits with bit c set; none for class 4. -/
def classBit (c : Nat) : BitVec 4 := 1#4 <<< c

/-- The registers of a block after a raise at a bit of class c (R469 steps 1 to 3): the block, the class raised, the
code applied and whether it was escalated. -/
def FBlock.raised (c bit : Nat) (f : FBlock) : FBlock × Nat × Nat × Bool :=
  let esc := decide (c < 4) && f.pend.getLsbD c
  let c1 := if esc then c + 1 else c
  let code := if esc then defaultCode c1 else f.codeOf bit
  let irq := decide (1 ≤ code ∨ c1 = 4)
  ({ f with status := f.status ||| (1#32 <<< bit), escnt := if esc ∧ f.escnt ≠ 0xff then f.escnt + 1 else f.escnt,
            pend := if c1 < 4 then f.pend ||| classBit c1 else f.pend,
            line := if c1 < 4 ∧ irq then f.line ||| classBit c1 else f.line,
            c4src := f.c4src || decide (c1 = 4),
            recd := f.recd.mapFinIdx fun i v _ => if i = bit then BitVec.ofNat 3 c1 else v }, c1, code, esc)

/-- Word 0 of a log entry (R482). -/
def logWord (i : BlockId) (bit : Nat) (test : Bool) (c : Nat) (esc : Bool) (code : Nat) : Word :=
  i.tcode ++ BitVec.ofBool i.isConv ++ 0#2 ++ BitVec.ofNat 5 bit ++ BitVec.ofBool test ++ BitVec.ofNat 3 c
    ++ BitVec.ofBool esc ++ 0#8 ++ BitVec.ofNat 3 code

/-- Adds a log entry, dropping the oldest of 64 (R482). -/
def FaultNode.addLog (e : Word × Word) (f : FaultNode) : FaultNode :=
  if f.log.length < 64 then { f with log := f.log ++ [e] }
  else { f with log := f.log.tail ++ [e], lost := if f.lost = 0xff then 0xff else f.lost + 1 }

/-- NSTAT (R478). -/
def FaultNode.nstat (f : FaultNode) : Word :=
  f.ltgt ++ 0#2 ++ BitVec.ofBool f.lcvg ++ f.lbit ++ 0#1 ++ f.lcls ++ BitVec.ofBool f.lesc ++ 0#2
    ++ BitVec.ofBool f.class4 ++ BitVec.ofNat 8 f.log.length

/-- nERR is asserted and its minimum time starts again (R480). -/
def FaultNode.assertNerr (f : FaultNode) : FaultNode := { f with nerrOn := true, minRun := true, minT := 0, relPend := false }

/-- Writes bytes into a list of cells from an address on. -/
def putBytes (a : Nat) (l : List Byte) (m : List Host.Cell) : List Host.Cell :=
  (l.foldl (fun (p : Nat × List Host.Cell) b => (p.1 + 1, cellSet 0 p.1 b p.2)) (a, m)).2

/-- Byte of a list of cells; an unlisted byte reads 0. -/
def getByte (m : List Host.Cell) (a : Nat) : Byte := cellGet 0 a m

/-- The event record of class 4 (R477, R518). -/
def Keep.eventRecord (f : FaultNode) (k : Keep) : Keep :=
  let entries := (f.log.drop (f.log.length - 12)).flatMap fun e => bytesOf 4 e.1.toNat ++ bytesOf 4 e.2.toNat
  { k with ram := putBytes 0x98 (bytesOf 4 k.rtc.toNat ++ bytesOf 4 f.nstat.toNat
      ++ (entries ++ List.replicate (96 - entries.length) 0)) k.ram }

/-- STOREs under way are cut off: the set that was being written is not valid (R514). -/
def Nv.abandonStores (v : Nv) : Nv :=
  if v.stores = [] then v
  else { v with stores := [],
                sets := v.sets.mapFinIdx fun i (c : ConfigSet) _ =>
                  if decide (i = 1) = (v.setOk && !v.setNo) then { c with blank := false, ok := false } else c }

/-- Class 4: nERR locks, the processor halts, the event record is written (R477). -/
def State.lockHalt (s : State) : State :=
  { s with fn := { s.fn.assertNerr with class4 := true }, boot := 3, haltC4 := true, keep := s.keep.eventRecord { s.fn with class4 := true } }

/-- A command under way completes HALTED (R120). -/
def State.haltCommand (m : MbId) (s : State) : State := s.err m .halted 0

/-- Axes are to enter OFF; commits, stores, swaps and programming runs end (R477, R514). -/
def State.haltRuns (s : State) : State :=
  { s with axes := s.axes.map fun a => { a with eng := { a.eng with offReq := true } },
           commits := [], nv := { s.nv.abandonStores with swap := none }, mem := { s.mem with runs := [] } }

/-- A halt of class 4 (R477, R120). -/
def State.class4Halt (s : State) : State := (s.lockHalt.each allMbs State.haltCommand).haltRuns

/-- Reactions of a code (R466, R472, R475, R476): nERR, NMI, block reset, node reset. `c` the class raised. -/
def State.react (i : BlockId) (c code : Nat) (s : State) : State :=
  let f := s.fn
  let f1 := if 2 ≤ code ∧ 1 ≤ c ∧ c < 4 then f.assertNerr else f
  let quiet := f.class4
  let f2 := if 3 ≤ code ∧ 2 ≤ c ∧ c < 4 ∧ s.boot ≠ 0 ∧ ¬ quiet then
      (if s.boot = 1 then { f1 with nmiDue := true } else { f1 with nmiHeld := true }) else f1
  let f3 := if 4 ≤ code ∧ 2 ≤ c ∧ c < 4 ∧ ¬ quiet ∧ i.resettable ∧ i ∉ f2.blockResets then
      { f2 with blockResets := f2.blockResets ++ [i] } else f2
  let f4 := if 5 ≤ code ∧ c = 3 ∧ ¬ quiet then { f3 with nodeReset := true } else f3
  { s with fn := f4 }

/-- Raises a fault without the safe-level requests of R473 (R468, R469). -/
def State.raise1 (i : BlockId) (bit : Nat) (test : Bool) (s : State) : State × Nat :=
  match classOf s.part i bit with
  | none => (s, 0)
  | some c =>
    let f := s.block i
    if f.fen.getLsbD bit = false then
      (s.modBlock i fun f => { f with status := f.status ||| (1#32 <<< bit) }, 0)
    else
      let r := f.raised c bit
      let c1 := r.2.1
      let code := if c1 = 4 then 0 else r.2.2.1
      let s1 := s.modBlock i fun _ => r.1
      let g := s1.fn.addLog (logWord i bit test c1 r.2.2.2 code, s1.keep.rtc)
      let s2 := { s1 with fn := { g with ltgt := i.tcode, lcvg := i.isConv, lbit := BitVec.ofNat 5 bit,
                                         lcls := BitVec.ofNat 3 c1, lesc := r.2.2.2 } }
      (if c1 = 4 then s2.class4Halt else s2.react i c1 code, c1)

/-- Issues a safe-level request for a bank that the node reaches, and raises SOFTSAFE (R326, R330, R334). -/
def State.requestSoft (b : BankId) (s : State) : State :=
  if s.present b ∧ s.linked b ∧ s.banks[b].softReq = false then
    ((s.modBank b fun k => { k with softReq := true }).raise1 (.bank b) 1 false).1
  else s

/-- Banks forced safe by a fault of class c in a block (R473). -/
def State.softBanks (i : BlockId) (c : Nat) (s : State) : List BankId :=
  match i.ownBank with
  | some b => if c = 4 then s.presentBanks else [b]
  | none => s.presentBanks

/-- Raises a fault under R469 with every reaction of its class and code; `test` marks FAULT_TEST. Answers the class. -/
def State.raiseT (i : BlockId) (bit : Nat) (test : Bool) (s : State) : State × Nat :=
  let r := s.raise1 i bit test
  if 3 ≤ r.2 then (r.1.each (r.1.softBanks i r.2) State.requestSoft, r.2) else r

/-- Raises a fault (R469). -/
def State.raise (i : BlockId) (bit : Nat) (s : State) : State := (s.raiseT i bit false).1

/-- Raises a fault where a condition holds. -/
def State.raiseIf (c : Bool) (i : BlockId) (bit : Nat) (s : State) : State := if c then s.raise i bit else s

/-- Acknowledges classes (R470). -/
def FBlock.ack (m : BitVec 4) (f : FBlock) : FBlock := { f with pend := f.pend &&& ~~~m, line := f.line &&& ~~~m }

/-- Clears status bits, and the classes that they held (R82, R470). -/
def FBlock.clear (m : Word) (f : FBlock) : FBlock :=
  { f with status := f.status &&& ~~~m, recd := f.recd.mapFinIdx fun i v _ => if m.getLsbD i then 7 else v }

/-- A block reset clears status bits and pending classes and releases the line (R471). -/
def FBlock.reset (f : FBlock) : FBlock := { f with status := 0, pend := 0, line := 0, recd := Vector.replicate 8 7 }

/-- Whether the interrupt line of a block is asserted (R478). -/
def FBlock.lineOn (f : FBlock) : Bool := decide (f.line ≠ 0) || f.c4src

/-- A word of lines: bit k from `f k`. -/
def bitsOf (n : Nat) (f : Nat → Bool) : Word := BitVec.ofNat 32 ((List.range n).foldl (fun a k => a + (if f k then 2 ^ k else 0)) 0)

/-- The interrupt summaries IRQAX to IRQNODE (R478). -/
def State.irqSummary (s : State) (k : Nat) : Word :=
  let line (i : BlockId) : Bool := (s.block i).lineOn
  match k with
  | 0 => bitsOf 24 fun n => line (.axis (Fin.ofNat 48 n))
  | 1 => bitsOf 24 fun n => line (.phase (Fin.ofNat 48 n) false)
  | 2 => bitsOf 24 fun n => line (.phase (Fin.ofNat 48 n) true)
  | 3 => bitsOf 24 fun n => line (.stream (Fin.ofNat 48 n))
  | 4 => bitsOf 28 fun n =>
      if n < 6 then line (.bank (Fin.ofNat 12 n))
      else if 8 ≤ n ∧ n < 14 then line (.conv (Fin.ofNat 12 (n - 8)))
      else if 16 ≤ n ∧ n < 24 then line (.fb (Fin.ofNat 8 (n - 16)))
      else if 24 ≤ n then line (.emu (Fin.ofNat 4 (n - 24))) else false
  | _ => bitsOf 16 fun n =>
      if n = 0 then line .node else if n = 1 then line .hostLink else if n = 2 then line .mailboxEngine
      else if n = 3 then line .kiln else if n = 4 then line .entry else if n = 5 then line .memPort
      else if n = 6 then line .nvStore else if n = 7 then line .aux
      else (let m := s.mbx[(Fin.ofNat 8 (n - 8))]; m.cirq && m.ien)

/-- nIRQ is asserted (R79, R478); `IEN` gates the mailboxes. The pin is high-impedance while the node is unpowered
(R81). -/
def State.nirq (s : State) : Bool :=
  s.powered && (List.finRange 6).any fun k =>
    let e : Word := if k.val = 5 then s.fn.ie[k] ||| 0xff00 else s.fn.ie[k]
    decide (s.irqSummary k.val &&& e ≠ 0)

/-- nERR is asserted; the pin is high-impedance while the node is unpowered (R81, R480). -/
def State.nerr (s : State) : Bool := s.powered && s.fn.nerrOn

/-- NERRCTL (R481). -/
def FaultNode.nerrctl (f : FaultNode) : Word :=
  0#21 ++ BitVec.ofBool f.class4 ++ BitVec.ofBool f.relPend ++ BitVec.ofBool f.nerrOn ++ 0#8

/-- A write of RELEASE (R480). -/
def FaultNode.release (f : FaultNode) : FaultNode :=
  if f.class4 ∨ f.nerrOn = false then f
  else if f.minRun then { f with relPend := true }
  else { f with nerrOn := false, relPend := false }

/-- Writes the `CODES` of a group: codes above the highest of their class are stored as that, bits without a source as 0
(R467). -/
def codesStored (l : List (Nat × Nat)) (g : Nat) (v : BitVec 24) : BitVec 24 :=
  BitVec.ofNat 24 ((List.range 8).foldl (fun a i =>
    let code := (v.extractLsb' (3 * i) 3).toNat
    let st := match l.find? fun p => p.1 = 8 * g + i with
      | some p => min code (maxCode p.2)
      | none => 0
    a + st * 8 ^ i) 0)

/-- A write of FRX (R465). -/
def FBlock.writeFrx (l : List (Nat × Nat)) (v : Word) (f : FBlock) : FBlock :=
  let g := v.extractLsb' 30 2
  if v.getLsbD 29 then { f with grp := g }
  else { f with grp := g, codes := f.codes.set g.toNat (codesStored l g.toNat (v.extractLsb' 0 24)) (by omega) }

/-- FRX as read (R465). -/
def FBlock.frx (f : FBlock) : Word := f.grp ++ 0#6 ++ f.codes.toList.getD f.grp.toNat 0

/-- A write of FEN (R465): class 3 bits read 1, bits without a source 0. -/
def FBlock.writeFen (l : List (Nat × Nat)) (v : Word) (f : FBlock) : FBlock :=
  { f with fen := (v &&& sourceMask l) ||| sourceMask (l.filter fun p => p.2 = 3) }

/-- FACK as read (R465). -/
def FBlock.fack (f : FBlock) : Word := f.escnt ++ 0#15 ++ BitVec.ofBool f.c4src ++ 0#4 ++ f.pend

/-- The classes that a STREAM_ACK acknowledges: every class that no set status bit holds (R470). -/
def FBlock.freeClasses (f : FBlock) : BitVec 4 :=
  BitVec.ofNat 4 ((List.range 4).foldl (fun a c =>
    a + (if (List.range 8).any fun i => f.status.getLsbD i && decide ((f.recd.toList.getD i 7).toNat = c) then 0 else 2 ^ c)) 0)

end Sys2Proof.Machine
end

