-- ==== Sys2Proof/Machine/Feedback.lean ====
section
/-! DEFINITION. Feedback channels and encoder emulation (13_position_feedback.md R395 to R417). -/
namespace Sys2Proof.Machine

/-- Applied parameters of a channel (R416). -/
structure FbCfg where
  mode : Nat
  flen : Bool
  igate : Bool
  idxen : Bool
  dirinv : Bool
  itol : Nat
  lines : Nat
  flmin : Int
  flmax : Int
  spavg : Nat
  swlen : Nat
  posoff : Nat
  poslen : Nat
  errpos : Nat
  errlvl : Bool
  poly : Nat
  crcw : Nat
  crcinv : Bool
  crcinit : Nat
  xtol : Nat
  xshift : Nat
  sstill : Nat
  srqoff : Nat
  deriving DecidableEq, Repr

/-- Configuration of a channel. -/
def State.fbCfg (s : State) (n : FbId) : FbCfg :=
  let c := s.pA n.val 0x5000 0
  let l := s.pA n.val 0x5001 0
  let sw := s.pA n.val 0x5200 0
  let fl := s.pA n.val 0x5201 0
  let cr := s.pA n.val 0x5202 0
  let x := s.pA n.val 0x5204 0
  { mode := fieldN c 0 3, flen := decide (fieldN c 20 1 = 1), igate := decide (fieldN c 18 1 = 1),
    idxen := decide (fieldN c 17 1 = 1), dirinv := decide (fieldN c 16 1 = 1), itol := fieldN l 24 8, lines := fieldN l 0 24,
    flmin := sgn (s.pA n.val 0x5002 0), flmax := sgn (s.pA n.val 0x5003 0), spavg := fieldN (s.pA n.val 0x5100 0) 0 4,
    swlen := fieldN sw 8 8, posoff := fieldN fl 24 8, poslen := fieldN fl 16 8, errpos := fieldN fl 8 8,
    errlvl := decide (fieldN fl 0 1 = 1), poly := fieldN cr 16 16, crcw := fieldN cr 8 5, crcinv := decide (fieldN cr 0 1 = 1),
    crcinit := fieldN (s.pA n.val 0x5203 0) 16 16, xtol := fieldN x 16 16, xshift := fieldN x 0 4,
    sstill := fieldN (s.pA n.val 0x5100 0) 16 16, srqoff := fieldN sw 16 8 }

/-- Clock of 240 MHz, since the node reset, of the latest feedback event (R39, R410): 12,000 clocks to 50 µs. -/
def State.now (s : State) : Nat := 12000 * s.edgeT + s.clk

/-- Clocks of 240 MHz in the tick that runs. -/
def State.tickClocks (s : State) : Nat := 12000 * s.units

/-- An event at a clock since the latest tick edge. -/
def State.atClock (clock : Nat) (s : State) : State := { s with clk := max s.clk clock }

/-- A value saturated to a signed half. -/
def satHalf (i : Int) : Half := BitVec.ofInt 16 (max (-32768) (min 32767 i))

/-! ## Counting (R398 to R401, R407, R408) -/

/-- Steps the count by d under the soft limits (R408). Answers whether FBLIM is raised. -/
def FbChan.move (c : FbCfg) (d : Int) (f : FbChan) : FbChan × Bool :=
  if !c.flen then ({ f with count := f.count + BitVec.ofInt 32 d, trk := f.trk + BitVec.ofInt 32 d, atLimit := false }, false)
  else
    let want := f.count.toInt + d
    let got := max c.flmin (min c.flmax want)
    let cut := decide (got ≠ want)
    ({ f with count := BitVec.ofInt 32 got, trk := f.trk + BitVec.ofInt 32 (got - f.count.toInt), limev := f.limev || cut,
              discarded := f.discarded || cut, atLimit := cut || (f.atLimit && decide (got = f.count.toInt)) },
     cut && !f.atLimit)

/-- A redefinition of the count, which the limits clamp (R407, R408, R418); a count that changes leaves the limit it was
at. -/
def FbChan.redefine (c : FbCfg) (v : Word) (f : FbChan) : FbChan :=
  let w := if c.flen then BitVec.ofInt 32 (max c.flmin (min c.flmax v.toInt)) else v
  { f with count := w, atLimit := f.atLimit && c.flen && decide (w = f.count) }

/-- Clamps a count outside the limits as a redefinition (R408). -/
def FbChan.clamp (c : FbCfg) (f : FbChan) : FbChan := f.redefine c f.count

/-- The speed measurement starts afresh at a clock (R410). -/
def FbChan.noSpeed (now : Nat) (f : FbChan) : FbChan :=
  { f with periods := [], skip := 0, runs := false, stepped := false, stepAt := now, words := [] }

/-- A counted step at a clock in a direction (R410). It ends the period that runs and begins the next, but for the first
after a standstill; the period that a turn ends, and the next, are discarded. -/
def FbChan.period (now : Nat) (neg : Bool) (f : FbChan) : FbChan :=
  let g := { f with dir := neg, stepped := true, stepAt := now, still := false, runs := !f.still }
  if f.stepped ∧ neg ≠ f.dir then { g with periods := [], skip := 1 }
  else if f.still ∨ f.runs = false then g
  else if f.skip ≠ 0 then { g with periods := [], skip := f.skip - 1 }
  else { g with periods := ((now - f.stepAt) :: f.periods).take 64 }

/-- A counted step of ±1 (R398, R401, R410). -/
def FbChan.step (c : FbCfg) (now : Nat) (neg : Bool) (f : FbChan) : FbChan × Bool :=
  (f.period now neg).move c (if neg then -1 else 1)

/-- An illegal transition (R399): the count holds; the period that runs and the first that begins later are discarded
(R410). -/
def FbChan.illegal (f : FbChan) : FbChan :=
  { f with illcnt := if f.illcnt = 0xff then 0xff else f.illcnt + 1, periods := [], skip := if f.runs then 2 else 1 }

/-- Place of (A, B) in the sequence 00, 10, 11, 01 (R398). -/
def quadPlace (a b : Bool) : Nat :=
  match a, b with
  | false, false => 0
  | true, false => 1
  | true, true => 2
  | false, true => 3

/-- Place of (U, V, W) in the sequence of R401, 6 for a state outside it. -/
def hallPlace (u v w : Bool) : Nat :=
  match u, v, w with
  | true, false, false => 0
  | true, true, false => 1
  | false, true, false => 2
  | false, true, true => 3
  | false, false, true => 4
  | true, false, true => 5
  | _, _, _ => 6

/-- A transition of the filtered inputs (R398, R399, R401). Answers the faults raised by status bit: 0 FBLIM, 1 QERR,
2 HERR. -/
def FbChan.transition (c : FbCfg) (a b z : Bool) (now : Nat) (f : FbChan) : FbChan × List Nat :=
  let g := { f with a := a, b := b, z := z }
  if c.mode = 1 ∨ c.mode = 4 then
    let d := (quadPlace a b + 4 - quadPlace f.a f.b) % 4
    if d = 0 then (g, [])
    else if d = 2 then (g.illegal, [1])
    else
      let r := g.step c now (decide (d = 3) != c.dirinv)
      (r.1, if r.2 then [0] else [])
  else if c.mode = 2 then
    let p := hallPlace f.a f.b f.z
    let q := hallPlace a b z
    let n := (if a ≠ f.a then 1 else 0) + (if b ≠ f.b then 1 else 0) + (if z ≠ f.z then 1 else 0)
    let g1 := if 2 ≤ n then g.illegal else g
    let ill := if 2 ≤ n then [1] else []
    if n = 0 then (g, [])
    else if q = 6 then ({ g1 with valid := false }, 2 :: ill)
    else if p = 6 ∨ f.valid = false then ({ g1 with valid := true }, ill)
    else if 2 ≤ n then (g1, ill)
    else
      let r := g.step c now (decide ((q + 6 - p) % 6 = 5) != c.dirinv)
      (r.1, if r.2 then [0] else [])
  else (g, [])

/-- An index event (R400). Answers whether IDXERR is raised. -/
def FbChan.index (c : FbCfg) (f : FbChan) : FbChan × Bool :=
  if (c.mode = 1 ∨ c.mode = 4) ∧ (!c.igate || (f.a && f.b)) then
    let g := { f with idxpos := f.count, idxev := true, idxRef := some (f.trk, f.dir), discarded := false }
    match f.idxRef with
    | some r =>
      if c.idxen ∧ r.2 = f.dir ∧ f.discarded = false then
        let d := (f.trk - r.1).toInt
        ({ g with idxd := satHalf d }, decide ((c.itol : Int) < (((d.natAbs : Int) - 4 * c.lines).natAbs : Int)))
      else (g, false)
    | none => (g, false)
  else (f, false)

/-- Entry into a mode at a clock (R407, R409): the pair is HERR's, for inputs that are no state of HALL (R401). -/
def FbChan.enter (mode now : Nat) (f : FbChan) : FbChan × List Nat :=
  let g := { f.noSpeed now with
    idxRef := none, discarded := false, req := false, first := true, badUp := false, xref := none, xmisUp := false }
  let bad := decide (mode = 2) && decide (hallPlace f.a f.b f.z = 6)
  ({ g with valid := decide (mode = 1 ∨ mode = 4) || (decide (mode = 2) && !bad) }, if bad then [2] else [])

/-- RESET_BLOCK of a channel (R417): both counts return to 0, within the soft limits (R408), and the mode is entered
again. A track count in SERIAL moves what follows it over the next tick (R412). -/
def FbChan.resetBlock (c : FbCfg) (now : Nat) (f : FbChan) : FbChan × List Nat :=
  let g : FbChan := { a := f.a, b := f.b, z := f.z, line := f.line, moved := if c.mode = 3 then f.moved - f.trk.toInt else 0 }
  (g.clamp c).enter c.mode now

/-! ## Serial words (R402 to R406, R411) -/

/-- Bits i to i + n − 1 of a word in the order received, the first as the most significant. -/
def msbField (bits : BitVec 64) (i n : Nat) : Nat :=
  (List.range n).foldl (fun a k => 2 * a + (if bits.getLsbD (i + k) then 1 else 0)) 0

/-- CRC of the first m bits of a word (R403). -/
def serialCrc (c : FbCfg) (bits : BitVec 64) (m : Nat) : Nat :=
  (List.range m).foldl (fun r k =>
    let top := decide (r / 2 ^ (c.crcw - 1) % 2 = 1) != bits.getLsbD k
    let sh := r * 2 % 2 ^ c.crcw
    if top then sh ^^^ (c.poly % 2 ^ c.crcw) else sh) (c.crcinit % 2 ^ c.crcw)

/-- Whether a received word is good (R403). -/
def wordGood (c : FbCfg) (bits : BitVec 64) : Bool :=
  let body := c.swlen - c.crcw
  let sent := msbField bits body c.crcw
  let want := if c.crcinv then 2 ^ c.crcw - 1 - sent else sent
  (decide (c.crcw = 0) || decide (serialCrc c bits body = want))
    && (decide (c.errpos = 255) || decide (bits.getLsbD c.errpos ≠ c.errlvl))

/-- A word that is not good (R403). Answers whether SWERR is raised. -/
def FbChan.wordBad (c : FbCfg) (f : FbChan) : FbChan × Bool :=
  ({ f with req := false, swfcnt := if f.swfcnt = 0xff then 0xff else f.swfcnt + 1, badUp := true,
            valid := if c.mode = 3 then false else f.valid, words := if c.mode = 3 then [] else f.words }, !f.badUp)

/-- Difference of two positions modulo 2^n, into the range of R404. -/
def posDiff (n : Nat) (a b : Nat) : Int :=
  ((a : Int) - b + 2 ^ (n - 1)).emod (2 ^ n) - 2 ^ (n - 1)

/-- A good word in SERIAL (R404, R411), requested at clock `at_`. Answers whether FBLIM is raised. -/
def FbChan.serialGood (c : FbCfg) (q at_ : Nat) (f : FbChan) : FbChan × Bool :=
  if f.first then
    let g := { f with first := false, valid := true, qLast := BitVec.ofNat 32 q }.redefine c (BitVec.ofNat 32 q)
    ({ g with words := [(0, at_)] }, false)
  else
    let d := posDiff c.poslen q f.qLast.toNat
    let r := { f with qLast := BitVec.ofNat 32 q, valid := true }.move c d
    let total : Int := match f.words with
      | w :: _ => w.1 + (r.1.trk - f.trk).toInt
      | [] => 0
    ({ r.1 with words := ((total, at_) :: f.words).take 65, dir := if d = 0 then r.1.dir else decide (d < 0),
                stepAt := if d = 0 then r.1.stepAt else at_, still := r.1.still && decide (d = 0),
                moved := f.moved + (r.1.trk - f.trk).toInt }, r.2)

/-- A good word in CROSS (R405). Answers whether XMIS is raised. -/
def FbChan.crossGood (c : FbCfg) (q : Nat) (f : FbChan) : FbChan × Bool :=
  let p : Int := (q / 2 ^ c.xshift : Nat)
  let t : Int := f.latch.toInt
  match f.xref with
  | none => ({ f with xref := some (t - p) }, false)
  | some o =>
    let m : Int := 2 ^ (c.poslen - c.xshift)
    let d := (p + o - t + m / 2).emod m - m / 2
    let bad := decide ((c.xtol : Int) < (d.natAbs : Int))
    ({ f with xdev := satHalf d, xmisUp := bad }, bad && !f.xmisUp)

/-- The end of a serial word (R403 to R405): its bits, bit i the i-th received. Answers the faults raised. -/
def FbChan.wordEnd (c : FbCfg) (bits0 : BitVec 64) (f : FbChan) : FbChan × List Nat :=
  if !f.req then (f, [])
  else
    let bits := if c.swlen < 64 then bits0 &&& BitVec.ofNat 64 (2 ^ c.swlen - 1) else bits0
    let f0 := { f with swraw := BitVec.ofNat 32 (msbField bits 0 32) }
    if wordGood c bits then
      let q := msbField bits c.posoff c.poslen
      let g := { f0 with req := false, badUp := false }
      if c.mode = 3 then
        let r := g.serialGood c q f.reqAt
        (r.1, if r.2 then [0] else [])
      else
        let r := g.crossGood c q
        (r.1, if r.2 then [5] else [])
    else
      let r := f0.wordBad c
      (r.1, if r.2 then [3] else [])

/-! ## Speed (R410, R411) -/

/-- FBSPD at a clock of 240 MHz. -/
def FbChan.speed (c : FbCfg) (now : Nat) (f : FbChan) : Word :=
  if f.still ∨ c.mode = 0 then 0
  else if c.mode = 3 then
    match f.words with
    | w :: r =>
      match (r.take (2 ^ c.spavg)).getLast? with
      | some o =>
        let t := w.2 - o.2
        let d := w.1 - o.1
        if t = 0 then 0 else BitVec.ofInt 32 (d.sign * (((3840000000 * d.natAbs) / t : Nat) : Int))
      | none => 0
    | [] => 0
  else
    let l := f.periods.take (2 ^ c.spavg)
    let n := l.length
    let tau := l.foldl (· + ·) 0
    let t := now - f.stepAt
    if n = 0 ∨ tau = 0 then 0
    else
      let v := if tau < t * n then 3840000000 / t else 3840000000 * n / tau
      BitVec.ofInt 32 (if f.dir then -(v : Int) else v)

/-- FBSTAT (R417). -/
def FbChan.stat (mode : Nat) (f : FbChan) : Word :=
  BitVec.ofBool f.valid ++ BitVec.ofNat 3 mode ++ BitVec.ofBool f.limev ++ BitVec.ofBool f.dir ++ BitVec.ofBool f.still
    ++ BitVec.ofBool f.idxev ++ 0#8 ++ f.swfcnt ++ f.illcnt

/-! ## Emulation (R412 to R415) -/

/-- Applied parameters of an emulation output. -/
structure EmuCfg where
  eoe : Bool
  einv : Bool
  align : Bool
  kindFb : Bool
  src : Nat
  lines : Nat
  rev : Nat
  deriving DecidableEq, Repr

/-- Configuration from words. -/
def emuCfg (cfg rev : Nat) : EmuCfg where
  eoe := decide (fieldN cfg 31 1 = 1)
  einv := decide (fieldN cfg 30 1 = 1)
  align := decide (fieldN cfg 29 1 = 1)
  kindFb := decide (fieldN cfg 24 1 = 1)
  src := fieldN cfg 16 5
  lines := fieldN cfg 0 16 + 1
  rev := rev

/-- Applied configuration of an output. -/
def State.emuCfg (s : State) (n : EmuId) : EmuCfg := Machine.emuCfg (s.pA n.val 0x5800 0) (s.pA n.val 0x5801 0)

/-- Linear movement of an output's source over the tick that runs, with 32 fraction bits (R412): an axis from the position
before to that of the latest edge, with `EALIGN` one edge earlier; a SERIAL channel by its words of the tick before. A
channel that counts steps moves at once, and linearly not at all. -/
def State.emuLine (s : State) (c : EmuCfg) : Int :=
  if c.kindFb then s.fbs[(Fin.ofNat 8 c.src : FbId)].line * oneStep
  else
    let a := s.axes[(Fin.ofNat 48 c.src : AxisId)]
    let p (i : Nat) : Int := a.obn.sent.getD i a.eng.pos
    let i := if c.align then 1 else 0
    wrapPos (p i - p (i + 1))

/-- HOLD: the channel source of an output is invalid (R412, R417). -/
def State.emuHold (s : State) (c : EmuCfg) : Bool := c.kindFb && !s.fbs[(Fin.ofNat 8 c.src : FbId)].valid

/-- The source at a clock of a tick of `len` clocks, whole units of 2^-32 (R412). -/
def Emu.present (len clk : Nat) (e : Emu) : Int := e.s + (e.span * (min clk len : Nat)).fdiv len

/-- Target count e* of R413 at a clock, with no loss of remainder. -/
def Emu.target (c : EmuCfg) (len clk : Nat) (e : Emu) : Int :=
  (((e.s - e.s0) * len + e.span * (min clk len : Nat)) * 4 * c.lines).fdiv ((c.rev : Int) * oneStep * len)

/-- A source that becomes invalid holds where it is; the rest of its movement is owed (R412). -/
def Emu.freeze (len clk : Nat) (e : Emu) : Emu :=
  { e with s := e.present len clk, span := 0, owed := e.owed + e.span - (e.span * (min clk len : Nat)).fdiv len }

/-- A tick edge: the movement of the tick is made, and the next begins; an invalid source holds (R412). -/
def Emu.edge (hold : Bool) (line : Int) (e : Emu) : Emu :=
  if hold then { e with s := e.s + e.span, span := 0, owed := e.owed + line }
  else { e with s := e.s + e.span, span := line + e.owed, owed := 0 }

/-- New parameters come into force at a clock (R414): driven from 0, released, or re-based so that e* equals e. -/
def Emu.apply (c : EmuCfg) (len clk : Nat) (line : Int) (e : Emu) : Emu :=
  let p := e.present len clk
  let g := { e with s := p - (line * (min clk len : Nat)).fdiv len, span := line, owed := 0 }
  if !c.eoe then { g with driven := false }
  else if e.driven = false then { g with driven := true, e := 0, s0 := p, lagUp := false }
  else { g with s0 := p + (-(e.e * (c.rev : Int) * oneStep)).fdiv (4 * (c.lines : Int)) }

/-- e* − e of an output that is driven (R415). -/
def Emu.backlog (c : EmuCfg) (len clk : Nat) (e : Emu) : Int := if e.driven then e.target c len clk - e.e else 0

/-- One step towards the target at a clock, no sooner than `EMGAP` after the last (R413, R415). -/
def Emu.advance (c : EmuCfg) (gap len clk now : Nat) (e : Emu) : Emu :=
  let b := e.backlog c len clk
  if b ≠ 0 ∧ e.stepAt + gap ≤ now then { e with e := e.e + b.sign, stepAt := now } else e

/-- Levels of A, B and Z (R413). -/
def Emu.pins (c : EmuCfg) (e : Emu) : Bool × Bool × Bool :=
  let q := (e.e.emod 4).toNat
  let a := decide (q = 1 ∨ q = 2)
  let b := decide (q = 2 ∨ q = 3)
  let z := decide (e.e.emod (4 * (c.lines : Int)) = 2)
  if c.einv then (b, a, z) else (a, b, z)

/-- EMSTAT (R417). -/
def State.emuStat (s : State) (n : EmuId) : Word :=
  let c := s.emuCfg n
  let e := s.emus[n]
  satHalf (e.backlog c s.tickClocks s.clk) ++ 0#13 ++ BitVec.ofBool (s.emuHold c)
    ++ BitVec.ofBool (e.driven && (e.pins c).2.2) ++ BitVec.ofBool e.driven

/-- Judges the backlog of an output (R415). -/
def State.emuJudge (n : EmuId) (s : State) : State :=
  let b := s.emus[n].backlog (s.emuCfg n) s.tickClocks s.clk
  let beyond := decide (4096 < b.natAbs)
  (s.modEmu n fun e => { e with lagUp := (e.lagUp || beyond) && decide (b ≠ 0) }).raiseIf (beyond && !s.emus[n].lagUp) (.emu n) 0

/-- The applied parameters of an output act from now on, the source as the tick finds it (R414). -/
def State.emuLoad (n : EmuId) (s : State) : State :=
  let c := s.emuCfg n
  s.modEmu n (Emu.apply c s.tickClocks s.clk (if s.emuHold c then 0 else s.emuLine c))

/-- The staged parameters of an output apply once it could step (R414, R416); `EMGAP` alone moves no origin (R415). -/
def State.emuApply (n : EmuId) (s : State) : State :=
  let keys := [0x5800, 0x5801, 0x5802].map fun i => keyOf n.val i 0
  let differs (k : Nat) : Bool := decide (paramGet s.nodeP.staged k ≠ paramGet s.nodeP.applied k)
  let free := !s.emus[n].driven || decide (s.emus[n].stepAt + s.pA n.val 0x5802 0 ≤ s.now)
  if keys.any differs ∧ free then
    let s1 := { s with nodeP := keys.foldl (fun p k => p.applyKey k) s.nodeP }
    if (keys.take 2).any differs then s1.emuLoad n else s1
  else s

/-- An output at a tick edge (R412, R414, R415). -/
def State.emuEdge (n : EmuId) (s : State) : State :=
  let c := s.emuCfg n
  ((s.modEmu n (Emu.edge (s.emuHold c) (s.emuLine c))).emuApply n).emuJudge n

/-! ## Commands -/

/-- Emulation outputs whose source is a channel. -/
def State.outputsOf (s : State) (n : FbId) : List EmuId :=
  (List.finRange 4).filter fun k => (s.emuCfg k).kindFb && decide ((s.emuCfg k).src % 8 = n.val)

/-- What follows a channel that changes from `f` to `g` (R412): outputs move with a track count that steps, and hold where
the count becomes invalid. -/
def State.emuFollow (n : FbId) (f g : FbChan) (s : State) : State :=
  let d : Int := if (s.fbCfg n).mode = 3 then 0 else (g.trk - f.trk).toInt * oneStep
  s.each (s.outputsOf n) fun k t => t.modEmu k fun e =>
    let h := if f.valid && !g.valid then e.freeze s.tickClocks s.clk else e
    { h with s := h.s + d }

/-- A change of a channel with the faults it raises; the outputs that follow it are judged (R415). -/
def State.fbEvent (n : FbId) (f : FbChan → FbChan × List Nat) (s : State) : State :=
  let r := f s.fbs[n]
  let s1 := (s.modFb n fun _ => r.1).emuFollow n s.fbs[n] r.1
  (s1.each (s.outputsOf n) State.emuJudge).each r.2 fun bit t => t.raise (.fb n) bit

/-- A channel enters its applied mode (R401, R407, R409). -/
def State.fbEnter (n : FbId) (s : State) : State := s.fbEvent n (FbChan.enter (s.fbCfg n).mode s.now)

/-- What FBnSC shows (R395): high-impedance, high, or the clock of a word, of `half` clocks of 240 MHz a half period. -/
inductive ClockPin where
  | highZ
  | high
  | clock (half : Nat)
  deriving DecidableEq, Repr

/-- FBnSC: a clock while a word runs, high between words in SERIAL and CROSS, high-impedance in QUAD and HALL (R395, R402)
and, DESIGN CHOICE (log 76), in OFF. -/
def State.fbClock (s : State) (n : FbId) : ClockPin :=
  let m := (s.fbCfg n).mode
  if m = 3 ∨ m = 4 then (if s.fbs[n].req then .clock (fieldN (s.pA n.val 0x5200 0) 24 8 + 1) else .high) else .highZ

/-- FB_TRANSITION (R398, R399, R401) at a sample of 240 MHz counted from the latest tick edge. -/
def execFbTransition (n : FbId) (a b z : Bool) (clock : Word) (s : State) : Host.Outcome State Fault Refusal :=
  let s1 := s.atClock clock.toNat
  .next (s1.fbEvent n (FbChan.transition (s.fbCfg n) a b z s1.now))

/-- INDEX_EVENT (R400). -/
def execIndexEvent (n : FbId) (s : State) : Host.Outcome State Fault Refusal :=
  .next (s.fbEvent n fun f =>
    let r := f.index (s.fbCfg n)
    (r.1, if r.2 then [4] else []))

/-- Keys of the serial words of a channel. -/
def serialKeys (n : FbId) : List Nat := [0x5200, 0x5201, 0x5202, 0x5203, 0x5204].map fun i => keyOf n.val i 0

/-- SERIAL_WORD_REQUEST (R402): staged serial parameters apply, the track count is latched. -/
def execSerialWordRequest (n : FbId) (s : State) : Host.Outcome State Fault Refusal :=
  let m := (s.fbCfg n).mode
  if m = 3 ∨ m = 4 then
    let s1 := { s with nodeP := (serialKeys n).foldl (fun p k => p.applyKey k) s.nodeP }
    .next (s1.modFb n fun f =>
      { f with req := true, reqAt := 12000 * s.edgeT + 240 * (s.fbCfg n).srqoff, latch := f.trk })
  else .next s

/-- SERIAL_WORD_END (R403 to R405). -/
def execSerialWordEnd (n : FbId) (bits : BitVec 64) (s : State) : Host.Outcome State Fault Refusal :=
  .next (s.fbEvent n (FbChan.wordEnd (s.fbCfg n) bits))

/-- SERIAL_WORD_TIMEOUT (R402, R403). -/
def execSerialWordTimeout (n : FbId) (s : State) : Host.Outcome State Fault Refusal :=
  .next (s.fbEvent n fun f =>
    if f.req then
      let r := f.wordBad (s.fbCfg n)
      (r.1, if r.2 then [3] else [])
    else (f, []))

/-- FB_STANDSTILL (R410, R411): `SSTILL` ms without a step, or without a word that changes the count, have passed before
the tick ends. A channel that counts nothing measures nothing. -/
def execFbStandstill (n : FbId) (s : State) : Host.Outcome State Fault Refusal :=
  let c := s.fbCfg n
  if c.mode = 0 ∨ 12000 * s.edgeT + s.tickClocks < s.fbs[n].stepAt + 240000 * c.sstill then .next s
  else .next (s.modFb n fun f => { f with still := true, periods := [], runs := false, words := f.words.take 1 })

/-- EMULATOR_STEP (R413 to R415): the output at a sample of 240 MHz. Staged parameters apply where it could step; it steps
where its count is not the target and the gap has passed. -/
def execEmulatorStep (at_ : EmuAt) (s : State) : Host.Outcome State Fault Refusal :=
  let n := at_.out
  let s1 := ((s.atClock at_.clock).emuApply n).emuJudge n
  .next ((s1.modEmu n (Emu.advance (s1.emuCfg n) (s1.pA n.val 0x5802 0) s1.tickClocks s1.clk s1.now)).emuJudge n)

end Sys2Proof.Machine
end

