-- ==== Sys2Proof/Machine/Kiln.lean ====
section
/-! DEFINITION. Kiln: readings, cross-check, substitution, governing temperatures, cones, the write window
(15_kiln.md R445 to R462), with the commands SENSOR_BROKEN and DIE_SENSOR_READ. -/
namespace Sys2Proof.Machine

/-- Kiln temperature of a sensor in 0.1 °C: the mean of its last four readings, none before four (R446; log 30). -/
def kilnTemp (l : List Int) : Option Int :=
  match l with
  | a :: b :: c :: d :: _ => some ((a + b + c + d).fdiv 4)
  | _ => none

/-- Neighbours of a phase sensor (R447). -/
def neighbours (i : Nat) : List Nat :=
  match i with
  | 0 => [2, 1, 3]
  | 1 => [3, 0, 2]
  | 2 => [0, 4, 3]
  | 3 => [1, 5, 2]
  | 4 => [2, 6, 5]
  | 5 => [3, 7, 4]
  | 6 => [4, 7, 5]
  | _ => [5, 6, 4]

/-- Kiln temperature of input i of a bank, before substitution. -/
def KilnBank.temp (k : KilnBank) (i : Nat) : Option Int := kilnTemp (k.readings.toList.getD i [])

/-- Kiln temperatures of the valid neighbours of a sensor (R448). -/
def KilnBank.validNear (k : KilnBank) (i : Nat) : List Int :=
  (neighbours i).filterMap fun j => if k.broken.getLsbD j then none else k.temp j

/-- The median of three, the mean of two, the single value of one (R448). -/
def reference (l : List Int) : Option Int :=
  match l with
  | [a] => some a
  | [a, b] => some ((a + b).fdiv 2)
  | [a, b, c] => some (max (min a b) (min (max a b) c))
  | _ => none

/-- Whether the difference of a sensor from its reference exceeds 25.0 K, none where it is not judged (R448). -/
def KilnBank.differs (k : KilnBank) (i : Nat) : Bool :=
  let near := k.validNear i
  match k.temp i, (if near.length < 2 then none else reference near) with
  | some t, some r => !k.broken.getLsbD i && decide (250 < (t - r).natAbs)
  | _, _ => false

/-- A reading of input i (R446, R448, R451): the sensor's last four readings and the run of its difference. -/
def KilnBank.reading (i : Nat) (v : Int) (k : KilnBank) : KilnBank :=
  let k1 := { k with readings := k.readings.mapFinIdx fun j l _ => if j = i then (v :: l).take 4 else l }
  if i < 8 then
    let d := k1.differs i
    { k1 with beyond := k1.beyond.mapFinIdx fun j x _ => if j = i then d else x,
              overT := k1.overT.mapFinIdx fun j x _ => if j = i ∧ ¬ d then 0 else x }
  else if v < -550 ∨ 2000 < v then { k1 with subx := true } else k1

/-- The run of every difference grows by a tick of `units` (R448). -/
def KilnBank.tick (units : Nat) (k : KilnBank) : KilnBank :=
  { k with overT := k.overT.mapFinIdx fun j x _ => if k.beyond.toList.getD j false then x + units else 0 }

/-- Kiln temperature of a phase sensor after substitution (R449). -/
def KilnBank.subst (k : KilnBank) (i : Nat) : Option Int :=
  if k.broken.getLsbD i then
    match reference (k.validNear i) with
    | some r => some r
    | none => ((List.range 8).filterMap fun j => if k.broken.getLsbD j then none else k.temp j).foldl
        (fun a t => some (match a with | some x => max x t | none => t)) none
  else k.temp i

/-- Governing temperature of a position in 0.1 °C; none before all nine sensors have been read four times (R446,
R452). -/
def KilnBank.governing (k : KilnBank) (p : Nat) : Option Int :=
  if k.readings.toList.any fun l => decide (l.length < 4) then none
  else
    let sub := if k.subx then none else k.temp 8
    ([k.subst (2 * p), k.subst (2 * p + 1), sub].filterMap id).foldl
      (fun a t => some (match a with | some x => max x t | none => t)) none

/-- Field of the thermal summary: floor of the temperature in °C plus 64, clamped; 0 while there is none (R453). -/
def KilnBank.field (k : KilnBank) (p : Nat) : Byte :=
  match k.governing p with
  | some t => BitVec.ofNat 8 (max 0 (min 255 (t.fdiv 10 + 64))).toNat
  | none => 0

/-- The thermal summary (R453). -/
def KilnBank.summary (k : KilnBank) : Word := k.field 3 ++ k.field 2 ++ k.field 1 ++ k.field 0

/-- The words of KTEMPS (R461); a sensor without a Kiln temperature reads 0. -/
def KilnBank.ktemps (k : KilnBank) : List Word :=
  let h (i : Nat) : Half := BitVec.ofInt 16 ((k.temp i).getD 0)
  [h 1 ++ h 0, h 3 ++ h 2, h 5 ++ h 4, h 7 ++ h 6, 0#16 ++ h 8]

/-- Threshold of a cone in °C (R454). -/
def coneAt (c : Nat) : Int := if c = 1 then 105 else if c = 2 then 120 else if c = 3 then 140 else 150

/-- The cone at temperature t in °C coming from cone c (R454). -/
def nextCone (hyst : Int) (t : Int) (c : Nat) : Nat :=
  ((List.range 4).map (· + 1)).foldl (fun a k =>
    if coneAt k ≤ t ∨ (k ≤ c ∧ coneAt k - hyst ≤ t) then k else a) 0

/-- The Kiln factor K of R455 for a temperature in whole °C. -/
def kilnFactor (t : Int) : Nat :=
  if t ≤ 120 then 32768 else if 135 ≤ t then 16384 else 32768 - (16384 * (t.toNat - 120) / 15)

/-- Whether the write window is open (R459, R451; log 30). -/
def Kiln.open_ (k : Kiln) : Bool :=
  match kilnTemp k.die with
  | some t => !k.dieBad && decide (-250 ≤ t ∧ t ≤ 1050)
  | none => false

/-- KDIE (R462). -/
def Kiln.kdie (k : Kiln) : Word :=
  BitVec.ofInt 16 ((kilnTemp k.die).getD 0) ++ 0#12 ++ BitVec.ofBool k.open_ ++ BitVec.ofNat 3 k.dcone

/-- The cone that an axis is treated as being in: 4 in a bank short of sensors (R450). -/
def Kiln.cone (k : Kiln) (n : AxisId) : Nat := if k.few[bankOf n] then 4 else k.cones[n]

/-- What KSTATb shows from a tick edge on (R462). -/
def Kiln.kstat (k : Kiln) (b : BankId) : Word :=
  let c (p : Pos) : BitVec 3 := BitVec.ofNat 3 (k.cone (axisAt b p))
  k.broken[b] ++ 0#6 ++ BitVec.ofBool k.subx[b] ++ BitVec.ofBool k.few[b] ++ 0#4 ++ c 3 ++ c 2 ++ c 1 ++ c 0

/-- Number of valid phase sensors. -/
def validSensors (broken : Byte) : Nat := ((List.range 8).filter fun i => !broken.getLsbD i).length

/-! ## Cones at a tick edge (R454, R456, R457) -/

/-- Temperature in °C that a summary reports for a position, none where it reports none. -/
def summaryTemp (w : Word) (p : Pos) : Option Int :=
  let f := (w.extractLsb' (8 * p.val) 8).toNat
  if f = 0 then none else some ((f : Int) - 64)

/-- Cone of an axis at a tick edge by its temperature (R454). -/
def State.coneOf (s : State) (n : AxisId) : Nat :=
  match summaryTemp s.kiln.ksum[bankOf n] (posOf n) with
  | some t => nextCone (s.pA 0 0x1300 0) t s.kiln.cones[n]
  | none => 0

/-- Fault bit of a cone's entry (R462). -/
def coneBit (c : Nat) : Nat := c

/-- The cone step of one axis: its cone, the faults of every cone it enters from below, and OFF from cone 3 (R454, R456).
A bank short of sensors raises only SENSFEW (R450). -/
def State.coneAxis (n : AxisId) (s : State) : State :=
  let old := s.kiln.cones[n]
  let c := s.coneOf n
  let s1 := { s with kiln := { s.kiln with cones := s.kiln.cones.set n.val c } }
  let s2 : State := if s.kiln.few[bankOf n] then s1 else
    s1.each (((List.range 4).map (· + 1)).filter fun k => decide (old < k ∧ k ≤ c)) fun k t => t.raise .kiln (coneBit k)
  if 3 ≤ s2.kiln.cone n then s2.modAxis n fun a => { a with eng := { a.eng with offReq := true, edge := false } } else s2

/-- Whether Kiln requests a safe level for a bank in this tick (R457). -/
def State.kilnSoft (s : State) (b : BankId) : Bool :=
  s.kiln.few[b] || decide (s.kiln.dcone = 4) || allPos.any fun p => decide (s.kiln.cones[axisAt b p] = 4)

/-- The safe-level request that goes with every packet: Kiln's while its condition lasts, that of class 4 for good.
SOFTSAFE is raised when it begins (R330, R457, R473). -/
def State.renewSoft (b : BankId) (s : State) : State :=
  let on := s.linked b && (s.kilnSoft b || s.fn.class4)
  let s1 := if on && !s.banks[b].renewed then s.requestSoft b else s
  s1.modBank b fun k => { k with renewed := on }

/-- Kiln's work at a tick edge (R450, R454, R457). -/
def State.kilnTick (s : State) : State :=
  let s1 := s.each s.presentBanks fun b t =>
    let few := decide (validSensors t.kiln.broken[b] < 4)
    let was := t.kiln.few[b]
    ({ t with kiln := { t.kiln with few := t.kiln.few.set b.val few } }).raiseIf (few && !was) .kiln 5
  let s2 := s1.each s1.presentAxes State.coneAxis
  let old := s2.kiln.dcone
  let c := match kilnTemp s2.kiln.die with
    | some t => nextCone (s2.pA 0 0x1300 0) (t.fdiv 10) old
    | none => 0
  let s3 := { s2 with kiln := { s2.kiln with dcone := c } }
  let s4 := (s3.raiseIf (decide (old < 3 ∧ 3 ≤ c)) .kiln 6).raiseIf (decide (old < 4 ∧ c = 4)) .kiln 7
  let s5 := { s4 with kiln := { s4.kiln with shown := Vector.ofFn s4.kiln.kstat } }
  s5.each s5.presentBanks State.renewSoft

/-! ## Commands -/

/-- SENSOR_BROKEN (R448, R449): the sensor whose difference has stood for 10 ms is excluded; the node learns of it
with the next upstream packet. -/
def State.sensorBroken (b : BankId) (i : Fin 8) (s : State) : State :=
  let k := s.banks[b].kiln
  if k.beyond[i] = true ∧ 200 ≤ k.overT[i] ∧ k.broken.getLsbD i.val = false then
    s.modBank b fun x => { x with kiln := { k with broken := k.broken ||| (1#8 <<< i.val), beyond := k.beyond.set i.val false,
                                                   overT := k.overT.set i.val 0 } }
  else s

/-- SENSOR_BROKEN. -/
def execSensorBroken (b : BankId) (input : Fin 8) (s : State) : Host.Outcome State Fault Refusal :=
  .next (s.sensorBroken b input)

/-- A reading of the node die sensor, in 0.1 °C (R446, R451). -/
def State.dieRead (reading : Half) (s : State) : State :=
  let v := reading.toInt
  let bad := decide (v < -550 ∨ 2000 < v)
  let k := s.kiln
  let run := if bad then 0 else min 10 (k.dieOkRun + 1)
  let k1 := { k with die := (v :: k.die).take 4, dieBad := bad || (k.dieBad && decide (run < 10)), dieOkRun := run }
  ({ s with kiln := k1 }).raiseIf (bad && decide (k.dieOkRun ≠ 0)) .kiln 8

/-- DIE_SENSOR_READ. -/
def execDieSensorRead (reading : Half) (s : State) : Host.Outcome State Fault Refusal := .next (s.dieRead reading)

end Sys2Proof.Machine
end

