-- ==== Sys2Proof/Machine/Pwm.lean ====
section
/-! DEFINITION. Duty codes, the minimum-pulse filter, period changes and pulse injection (10_pwm.md R303 to R322,
09_load_angle_observer.md R275, R276) and the time base of a bank (01_node_and_banks.md R30, R31, R41). -/
namespace Sys2Proof.Machine

/-- rank(j) of R306. -/
def dutyRank (j : Nat) : Nat :=
  match j % 16 with
  | 0 => 0
  | 1 => 8
  | 2 => 4
  | 3 => 12
  | 4 => 2
  | 5 => 10
  | 6 => 6
  | 7 => 14
  | 8 => 1
  | 9 => 9
  | 10 => 5
  | 11 => 13
  | 12 => 3
  | 13 => 11
  | 14 => 7
  | _ => 15

/-- Effective on-time of a code in period number `num` of length p before the filter (R306, R307). -/
def onTime (code num p : Nat) : Nat :=
  if code = 0 then 0
  else if p * 16 ≤ code then p
  else code / 16 + (if dutyRank num < code % 16 then 1 else 0)

/-- Whether a software-set code is clamped under R307: above P × 16 and not the full code. -/
def dutyClamps (code p : Nat) : Bool := decide (p * 16 < code) && decide (code ≠ 0xfffff)

/-- The minimum-pulse filter (R309, R310): on-time and whether it was adjusted. -/
def minPulse (filt : Word) (d p : Nat) : Nat × Bool :=
  let tmin := (filt.extractLsb' 0 9).toNat
  if 0 < d ∧ d < tmin then (if filt.getLsbD 31 then tmin else 0, true)
  else if d < p ∧ p - d < tmin then (if filt.getLsbD 31 then p - tmin else p, true)
  else (d, false)

/-- Whether a leg with on-time d is high at a count of a period of length len: its pulse is centred (R304). -/
def legHigh (d len count : Nat) : Bool := decide ((len - d) / 2 ≤ count) && decide (count < (len - d) / 2 + d)

/-- A loop code formed for period length p, applied in a period of length l (R308). -/
def scaleCode (code p l : Nat) : Nat :=
  if code = 0 ∨ code = 0xfffff ∨ p = l ∨ p = 0 then code else (2 * code * l + p) / (2 * p)

/-- Code sent for a loop duty (R253): P × 16 goes as 0xF_FFFF. -/
def loopCode (code p : Nat) : Nat := if code = p * 16 then 0xfffff else code

/-- Offset of bank b among n banks at period p (R41). -/
def bankOffset (n b p : Nat) : Nat := b * p / n

/-- The change from a grid of period `old` whose next period starts at `next` to new values whose first period starts at
`s1` (R320). -/
def periodChange (old : Nat) (next s1 : Int) (use : PwmUse) : PwmChange :=
  let d := (s1 - next).toNat
  ⟨d / old, d % old, use⟩

/-- Drive mode of a bank position (R313, R331). -/
def driveMode (drv : Word) (p : Pos) : BitVec 2 := drv.extractLsb' (2 * p.val) 2

/-- Angle advance over t PWM clocks at velocity feed-forward v (Q26.6), in the unit of R30. -/
def angleStep (v : Int) (t : Int) : Int := (v * 16384 * t).fdiv (20000 * 24000)

/-- Turn from one angle to the next in the unit of R30: half a cycle, the most that a tick of 100 µs can bring (R160), goes in
the direction of the velocity feed-forward of the angle reached. -/
def angleTurn (a0 a1 vff : Word) : Int :=
  let d := (a1 - a0).toInt
  if d = -2147483648 ∧ 0 < vff.toInt then -d else d

/-- Interpolated angle at t clocks after the tick edge, the tick lasting `len` clocks: from a0 to a1, beyond the edge
towards the next angle `a2` (R31); `v1`, `v2` the velocity feed-forward of a1 and a2. -/
def interpolate (a0 a1 a2 v1 v2 : Word) (len t : Int) : Word :=
  if t < len then a0 + BitVec.ofInt 32 ((angleTurn a0 a1 v1 * t).fdiv len)
  else a1 + BitVec.ofInt 32 ((angleTurn a1 a2 v2 * (t - len)).fdiv len)

/-- Whether the pattern of R275 fits on all four legs (R276). -/
def injectionFits (codes : Vector Nat 4) (amp : Int) (filts : Vector Word 4) (p : Nat) : Bool :=
  let ok (c : Int) (f : Word) : Bool :=
    let t : Int := (f.extractLsb' 0 9).toNat * 16
    decide (t ≤ c ∧ c ≤ p * 16 - t)
  ok (codes[0] + amp) filts[0] && ok (codes[1] - amp) filts[1] && ok (codes[2] - amp) filts[2]
    && ok (codes[3] + amp) filts[3]

/-- Codes with the pattern added (R275). -/
def addPattern (codes : Vector Nat 4) (amp : Int) : Vector Nat 4 :=
  #v[(codes[0] + amp).toNat, (codes[1] - amp).toNat, (codes[2] - amp).toNat, (codes[3] + amp).toNat]

end Sys2Proof.Machine
end

