-- ==== Sys2Proof/Machine/Legs.lean ====
section
/-! DEFINITION. Leg protection, the two-step release, re-arming and retries of one axis, spare legs
(11_gate_drive_and_legs.md). -/
namespace Sys2Proof.Machine

/-- The faults of a leg byte in the order of R366. -/
inductive LegFault where
  | dsh | dsl | och | ocl | uvh | uvl | xon
  deriving DecidableEq, Repr

/-- Bit of a leg fault in its byte (R366). -/
def LegFault.bit : LegFault → Nat
  | .dsh => 0
  | .dsl => 1
  | .och => 2
  | .ocl => 3
  | .uvh => 4
  | .uvl => 5
  | .xon => 6

/-- AXFLT bit of a leg fault (R367). -/
def LegFault.axisBit : LegFault → Nat
  | .dsh => 30
  | .dsl => 30
  | .och => 29
  | .ocl => 29
  | .uvh => 28
  | .uvl => 28
  | .xon => 27

/-- Side of the fault: whether it counts as a high-side fault (R347). -/
def LegFault.highSide : LegFault → Bool
  | .dsl => false
  | .ocl => false
  | .uvl => false
  | _ => true

/-- Sets a bit of a leg's byte. -/
def LegsBank.record (leg : Pos) (bit : Nat) (l : LegsBank) : LegsBank :=
  { l with flt := l.flt.set leg.val (l.flt[leg.val] ||| (1#8 <<< bit)) }

/-- Step 1 of a release: freewheel through the other side; the direction never changes during a release (R347, R351). -/
def LegsBank.step1 (high bankScope : Bool) (cause : BlockId × Nat) (l : LegsBank) : LegsBank :=
  { l with rel := if high then .lows else .highs, bankRel := bankScope, enRel := false, latch := true, step2 := false,
           waiting := false, rpend := false, energised := false, cause := some cause,
           cut := Vector.replicate 4 (if high then (0, 1) else (1, 1)) }

/-- Step 2: every switch of the axis off (R349). -/
def LegsBank.toStep2 (l : LegsBank) : LegsBank := { l with rel := .none, step2 := true, held := 0 }

/-- What step 2 does about a retry (R357): `auto` on OC-G8 and OC-G16. Answers whether RETRYEND is raised. -/
def LegsBank.afterStep2 (auto : Bool) (retryn : Nat) (l : LegsBank) : LegsBank × Bool :=
  if !auto || !l.latch then (l, false)
  else if l.tries.toNat < retryn then ({ l with rpend := true, waiting := true, waitT := 0 }, false)
  else (l, true)

/-- A fault of axis scope in a leg of axis n (R347, R348, R350, R351): recorded in the byte of its leg; it starts a release,
takes a freewheeling axis to step 2, or only records, as where the leg is held off. Answers whether the axis fault is raised
and whether step 2 was reached. -/
def LegsBank.fault (n : AxisId) (f : LegFault) (leg : Pos) (blocks : Bool) (l : LegsBank) : LegsBank × Bool × Bool :=
  let l1 := l.record leg f.bit
  let shrt := !blocks || decide (f = .xon)
  let l2 := if !blocks && decide (f ≠ .xon) then l1.record leg 7 else l1
  let hold (x : LegsBank) : LegsBank :=
    if shrt then { x with held := x.held ||| (1#4 <<< leg.val), cut := x.cut.set leg.val l.cut[leg.val] } else x
  let off := l.held.getLsbD leg.val
  match l.rel with
  | .none => if l.latch then (l2, false, false) else (hold (l2.step1 f.highSide false (.axis n, f.axisBit)), true, false)
  | .lows =>
    if l.enRel then (hold (l2.step1 f.highSide false (.axis n, f.axisBit)), true, false)
    else if off then (l2, false, false)
    else if f = .dsl ∨ f = .ocl ∨ f = .uvl ∨ f = .xon then (l2.toStep2, true, true) else (l2, false, false)
  | .highs => if f.highSide && !off then (l2.toStep2, true, true) else (l2, false, false)

/-- Whether the cause of a latched axis persists (R355); `served` the terminals of the axis that a spare serves. -/
def LegsBank.persists (busHi railLo : Bool) (served : BitVec 4) (l : LegsBank) : Bool :=
  let shrt (i : Nat) : Bool :=
    (l.flt.toList.getD i 0).getLsbD 7 && !l.isolLegs.getLsbD i && !served.getLsbD i
  (l.uv.toList.any fun u => decide (u ≠ 0)) || railLo || busHi || decide (l.isolLegs ≠ 0)
    || (List.range 4).any shrt || decide (l.badWords ≠ [])

/-- A re-arm that is refused: the edge counts for `TRIES`, and the procedure of the retries begins again (R357, R358). -/
def LegsBank.refused (host auto : Bool) (retryn : Nat) (l : LegsBank) : LegsBank × Bool :=
  let l1 := { l with tries := if host then 0 else l.tries + 1, rpend := false, waiting := false }
  if l1.step2 then l1.afterStep2 auto retryn else (l1, false)

/-- A re-arm that is not refused clears the bytes and the latch (R355, R357, R358). -/
def LegsBank.rearmed (host : Bool) (l : LegsBank) : LegsBank :=
  { l with flt := Vector.replicate 4 0, latch := false, cause := none, rpend := false, waiting := false, bankRel := false,
           tries := if host then 0 else l.tries + 1 }

/-- REL code of R366. -/
def Release.code : Release → BitVec 2
  | .none => 0
  | .lows => 1
  | .highs => 2

/-- A byte of ARMSTAT (R366). -/
def LegsBank.armByte (l : LegsBank) : Byte :=
  l.tries ++ BitVec.ofBool l.latch ++ BitVec.ofBool l.rpend ++ (if l.enRel then 0#2 else l.rel.code)
    ++ BitVec.ofBool (decide (l.isolLegs ≠ 0))

/-- A word of LEGFLT (R366). -/
def LegsBank.fltWord (l : LegsBank) : Word := l.flt[3] ++ l.flt[2] ++ l.flt[1] ++ l.flt[0]

/-! ## Spare legs (R359 to R364) -/

/-- Shown state of a spare (R366): DISABLED for an idle spare whose enable bit is 0. -/
def Spare.code (en : Bool) (s : Spare) : BitVec 2 :=
  match s.st with
  | .idle => if en then 0 else 3
  | .inuse => 1
  | .failed => 2

/-- SPARESTAT (R366). -/
def spareStat (retired : BitVec 16) (cfg : Word) (sp : Vector Spare 2) : Word :=
  let half (s : Spare) (en : Bool) : Byte :=
    s.code en ++ BitVec.ofBool s.swp ++ 0#1
      ++ (if s.st = .inuse then BitVec.ofNat 2 (s.leg.val / 4) ++ BitVec.ofNat 2 (s.leg.val % 4) else 0#4)
  retired ++ half sp[1] (cfg.getLsbD 1) ++ half sp[0] (cfg.getLsbD 0)

/-- Which spare serves a terminal, if one does (R337). -/
def servedBy (sp : Vector Spare 2) (leg : LegId) : Option Bool :=
  if sp[0].st = .inuse ∧ sp[0].leg = leg then some false
  else if sp[1].st = .inuse ∧ sp[1].leg = leg then some true
  else none

/-- The spare that SPSEL chooses, if it is enabled and idle (R359); `true` for SP2. -/
def chooseSpare (cfg : Word) (sp : Vector Spare 2) (sel : BitVec 2) : Option Bool :=
  let free1 := cfg.getLsbD 0 && decide (sp[0].st = .idle)
  let free2 := cfg.getLsbD 1 && decide (sp[1].st = .idle)
  if sel = 1 then (if free1 then some false else none)
  else if sel = 2 then (if free2 then some true else none)
  else if free1 then some false
  else if free2 then some true
  else none

end Sys2Proof.Machine
end

