-- ==== Sys2Proof/Machine/Queues.lean ====
section
/-! DEFINITION. Tagged queues, their entries and limit comparators (12_sampling_and_queues.md R378 to R394). -/
namespace Sys2Proof.Machine

/-- A bank entry (R378, R379, R380). -/
def bankEntry (point : BitVec 2) (seq : Byte) (conv : Nat) (v : Half) : Word :=
  point ++ 1#1 ++ BitVec.ofNat 5 conv ++ seq ++ v

/-- An auxiliary entry (R379, R380, R386). -/
def auxEntry (second : Bool) (slot : Nat) (pass : Byte) (v : Half) : Word :=
  1#1 ++ BitVec.ofBool second ++ 0#1 ++ BitVec.ofNat 5 slot ++ pass ++ v

/-- Tag of an entry. -/
def tagOf (w : Word) : Byte := w.extractLsb' 24 8

/-- Whether an entry lies outside comparator i of limit words `lim` (R391). -/
def outsideOf (lim : Nat → Word) (i : Nat) (w : Word) : Bool :=
  let a := lim (2 * i)
  let b := lim (2 * i + 1)
  let v := w.extractLsb' 0 16
  let lo := b.extractLsb' 0 16
  let hi := b.extractLsb' 16 16
  if a.getLsbD 30 then decide (v.toInt < lo.toInt ∨ hi.toInt < v.toInt)
  else decide (v.toNat < lo.toNat ∨ hi.toNat < v.toNat)

/-- Whether comparator i judges an entry. -/
def judges (lim : Nat → Word) (i : Nat) (w : Word) : Bool :=
  (lim (2 * i)).getLsbD 31 && decide ((lim (2 * i)).extractLsb' 0 8 = tagOf w)

/-- Judges an entry by all comparators (R391): the LIM faults raised, as bits 4 to 7. -/
def Queue.judge (lim : Nat → Word) (w : Word) (q : Queue) : Queue × List Nat :=
  [0, 1, 2, 3].foldl (fun (a : Queue × List Nat) i =>
    if judges lim i w then
      if outsideOf lim i w then
        ({ a.1 with lout := a.1.lout ||| (1#4 <<< i), prevOut := a.1.prevOut ||| (1#4 <<< i) },
         if a.1.prevOut.getLsbD i then a.2 else a.2 ++ [4 + i])
      else ({ a.1 with lout := a.1.lout &&& ~~~(1#4 <<< i), prevOut := a.1.prevOut &&& ~~~(1#4 <<< i) }, a.2)
    else a) (q, [])

/-- Inserts an entry into a queue of capacity `cap` (R382, R386, R394): stored, dropped and counted, or ignored. -/
def Queue.insert (cap : Nat) (w : Word) (q : Queue) : Queue × Bool :=
  if !q.en then (q, false)
  else if q.fifo.length < cap then ({ q with fifo := q.fifo ++ [w] }, false)
  else ({ q with ovf := if q.ovf = 0xffff then 0xffff else q.ovf + 1, ovfEv := true, epi := true }, !q.epi)

/-- Loads entries one after the other: the queue and the fault bits raised (R382, R391, R394). -/
def Queue.load (cap : Nat) (lim : Nat → Word) (ws : List Word) (q : Queue) : Queue × List Nat :=
  ws.foldl (fun (a : Queue × List Nat) w =>
    let j := a.1.judge lim w
    let i := j.1.insert cap w
    (i.1, a.2 ++ j.2 ++ (if i.2 then [1] else []))) (q, [])

/-- Removes the oldest entry (R388). -/
def Queue.pop (q : Queue) : Queue :=
  let f := q.fifo.tail
  { q with fifo := f, epi := q.epi && decide (f ≠ []) }

/-- A write to `OVFEV`: a 1 clears it and `OVF` (R393). -/
def Queue.clearOvf (on : Bool) (q : Queue) : Queue := if on then { q with ovf := 0, ovfEv := false } else q

/-- Empties the queue (R389, R390). -/
def Queue.flush (q : Queue) : Queue := { q with fifo := [], epi := false }

/-- Enables or disables the queue (R389). -/
def Queue.enable (on : Bool) (q : Queue) : Queue := if on then { q with en := true } else { q.flush with en := false }

/-- The word a fetch returns: the oldest entry or the empty entry (R388, R69). -/
def Queue.front (q : Queue) : Word := q.fifo.headD 0

end Sys2Proof.Machine
end

