-- ==== Sys2Proof/Machine/Regs.lean ====
section
/-! DEFINITION. The register map of the ordinary pages: which register lies where and what it reads (R62, R64, R73, R107,
R191, R264, R281, R296, R332, R366, R393, R417, R443, R462, R478, R509, R546, R547, R556, R573). -/
namespace Sys2Proof.Machine

/-- The registers of the ordinary pages. -/
inductive Reg where
  | nothing
  | id | fwver | hlcfg | hlstat | hlsync | compat
  | nstat | irq (k : Nat) | ie (k : Fin 6) | nerrctl | batch | batchstat
  | fstatus (i : BlockId) | fen (i : BlockId) | frx (i : BlockId) | fack (i : BlockId)
  | cmd (m : MbId) (i : Fin 16) | rsp (m : MbId) (i : Fin 16) | mbctl (m : MbId) | mbstat (m : MbId)
  | pos (n : AxisId) (hi : Bool) | vel (n : AxisId) | accp (n : AxisId) | axstat (n : AxisId)
  | cmpval (n : AxisId) (hi : Bool) | cmpctl (n : AxisId) | cmpint (n : AxisId) | cmpstat (n : AxisId)
  | icmd (n : AxisId) | i2tstat (n : AxisId) | curword (n : AxisId) (k : Fin 4)
  | obs (n : AxisId) (k : Nat) | homestat (n : AxisId)
  | blstat (b : BankId) | pwmstat (b : BankId) | pulseadj (b : BankId) | safelat (b : BankId)
  | legflt (b : BankId) (p : Pos) | armstat (b : BankId) | sparestat (b : BankId) | qstat (b : BankId)
  | fb (n : FbId) (k : Nat) | swraw (n : FbId) | emstat (n : EmuId)
  | astat | aseq
  | kdie | ksum (b : BankId) | kstat (b : BankId)
  | pestat | pebus | pepwr | peacc | kpstat
  | xstat | xaddr | xholds
  | nvstat | nvseq | rskip
  | pcstat | bwseq | bw (k : Nat)
  | gpin | gpout
  | pairstat
  deriving DecidableEq, Repr

/-- The four registers of the common layout (R465). -/
def commonReg (i : BlockId) (k : Nat) : Reg :=
  match k with
  | 0 => .fstatus i
  | 1 => .fen i
  | 2 => .frx i
  | _ => .fack i

/-- Registers of page 0x01 (R478). -/
def page01 (i : Nat) : Reg :=
  if i = 0 then .nstat
  else if i ≤ 6 then .irq (i - 1)
  else if 0x08 ≤ i ∧ i ≤ 0x0d then .ie (Fin.ofNat 6 (i - 8))
  else if i = 0x0e then .nerrctl
  else if i = 0x10 then .batch
  else if i = 0x11 then .batchstat
  else if 0x18 ≤ i ∧ i ≤ 0x1b then commonReg .node (i - 0x18)
  else if 0x1c ≤ i ∧ i ≤ 0x1f then commonReg .hostLink (i - 0x1c)
  else if 0x20 ≤ i ∧ i ≤ 0x23 then commonReg .mailboxEngine (i - 0x20)
  else .nothing

/-- Registers of an axis page (R191, R264, R281, R296). -/
def pageAxis (n : AxisId) (i : Nat) : Reg :=
  if i = 0 then .pos n false
  else if i = 1 then .pos n true
  else if i = 2 then .vel n
  else if i = 3 then .accp n
  else if i = 6 then .axstat n
  else if i = 8 then .cmpval n false
  else if i = 9 then .cmpval n true
  else if i = 0x0a then .cmpctl n
  else if i = 0x0b then .cmpint n
  else if i = 0x0c then .cmpstat n
  else if 0x10 ≤ i ∧ i ≤ 0x13 then commonReg (.axis n) (i - 0x10)
  else if i = 0x20 then .icmd n
  else if i = 0x21 then .i2tstat n
  else if 0x22 ≤ i ∧ i ≤ 0x25 then .curword n (Fin.ofNat 4 (i - 0x22))
  else if 0x26 ≤ i ∧ i ≤ 0x29 then commonReg (.phase n false) (i - 0x26)
  else if 0x2a ≤ i ∧ i ≤ 0x2d then commonReg (.phase n true) (i - 0x2a)
  else if 0x30 ≤ i ∧ i ≤ 0x32 then .obs n (i - 0x30)
  else if i = 0x33 then .homestat n
  else .nothing

/-- Registers of a bank page (R37, R332, R366, R393). -/
def pageBank (b : BankId) (i : Nat) : Reg :=
  if i = 1 then .blstat b
  else if i = 2 then .pwmstat b
  else if i = 3 then .pulseadj b
  else if i = 4 then .safelat b
  else if 5 ≤ i ∧ i ≤ 8 then commonReg (.bank b) (i - 5)
  else if 9 ≤ i ∧ i ≤ 0x0c then .legflt b (Fin.ofNat 4 (i - 9))
  else if i = 0x0d then .armstat b
  else if i = 0x0e then .sparestat b
  else if i = 0x0f then .qstat b
  else if 0x14 ≤ i ∧ i ≤ 0x17 then commonReg (.conv b) (i - 0x14)
  else .nothing

/-- Registers of a feedback page (R417). -/
def pageFb (n : FbId) (i : Nat) : Reg :=
  if i ≤ 5 then .fb n i
  else if 8 ≤ i ∧ i ≤ 0x0b then commonReg (.fb n) (i - 8)
  else if i = 0x0c then .swraw n
  else if n.val < 4 ∧ i = 0x20 then .emstat (Fin.ofNat 4 n.val)
  else if n.val < 4 ∧ 0x21 ≤ i ∧ i ≤ 0x24 then commonReg (.emu (Fin.ofNat 4 n.val)) (i - 0x21)
  else .nothing

/-- Registers of pages 0x60 to 0x66 and 0x70 (R393, R443, R462, R509, R546, R547, R556, R573). -/
def pageUnit (p i : Nat) : Reg :=
  if p = 0x60 then
    (if i = 0 then .astat else if i = 1 then .aseq else if 2 ≤ i ∧ i ≤ 5 then commonReg .aux (i - 2) else .nothing)
  else if p = 0x61 then
    (if i = 0 then .kdie else if 1 ≤ i ∧ i ≤ 6 then .ksum (Fin.ofNat 12 (i - 1))
     else if 8 ≤ i ∧ i ≤ 0x0b then commonReg .kiln (i - 8)
     else if 0x10 ≤ i ∧ i ≤ 0x15 then .kstat (Fin.ofNat 12 (i - 0x10)) else .nothing)
  else if p = 0x62 then
    (if i = 0 then .pestat else if i = 1 then .pebus else if i = 2 then .pepwr else if i = 3 then .peacc
     else if i = 4 then .kpstat else if 8 ≤ i ∧ i ≤ 0x0b then commonReg .entry (i - 8) else .nothing)
  else if p = 0x63 then
    (if i = 0 then .xstat else if i = 1 then .xaddr else if i = 2 then .xholds
     else if 8 ≤ i ∧ i ≤ 0x0b then commonReg .memPort (i - 8) else .nothing)
  else if p = 0x64 then
    (if i = 0 then .nvstat else if i = 1 then .nvseq else if i = 2 then .rskip
     else if 8 ≤ i ∧ i ≤ 0x0b then commonReg .nvStore (i - 8) else .nothing)
  else if p = 0x65 then
    (if i = 0 then .pcstat else if i = 1 then .bwseq else if 2 ≤ i ∧ i ≤ 4 then .bw (i - 2)
     else if 8 ≤ i ∧ i ≤ 0x0d then .bw (3 + (i - 8)) else if 0x10 ≤ i ∧ i ≤ 0x15 then .bw (9 + (i - 0x10)) else .nothing)
  else if p = 0x66 then (if i = 0 then .gpin else if i = 1 then .gpout else .nothing)
  else if p = 0x70 then (if i = 0 then .pairstat else .nothing)
  else .nothing

/-- The register at an index of a page, by the map alone (R62). -/
def regMap (page : Byte) (i : Nat) : Reg :=
  let p := page.toNat
  if p = 0 then
    (if i = 0 then .id else if i = 1 then .fwver else if i = 4 then .hlcfg else if i = 5 then .hlstat
     else if i = 6 then .hlsync else if i = 7 then .compat else .nothing)
  else if p = 1 then page01 i
  else if 0x10 ≤ p ∧ p ≤ 0x17 then
    (let m : MbId := Fin.ofNat 8 (p - 0x10)
     if i < 0x10 then .cmd m (Fin.ofNat 16 i) else if i < 0x20 then .rsp m (Fin.ofNat 16 (i - 0x10))
     else if i = 0x20 then .mbctl m else if i = 0x21 then .mbstat m else .nothing)
  else if 0x20 ≤ p ∧ p ≤ 0x37 then pageAxis (Fin.ofNat 48 (p - 0x20)) i
  else if 0x40 ≤ p ∧ p ≤ 0x45 then pageBank (Fin.ofNat 12 (p - 0x40)) i
  else if 0x50 ≤ p ∧ p ≤ 0x57 then pageFb (Fin.ofNat 8 (p - 0x50)) i
  else pageUnit p i

/-- The register a node serves: pages of absent axes and banks, and page 0x70 of a single-node part, hold nothing (R5,
R62). -/
def State.regAt (s : State) (page : Byte) (i : Nat) : Reg :=
  let p := page.toNat
  if 0x20 ≤ p ∧ p ≤ 0x37 ∧ s.axisPresent (Fin.ofNat 48 (p - 0x20)) = false then .nothing
  else if 0x40 ≤ p ∧ p ≤ 0x45 ∧ s.present (Fin.ofNat 12 (p - 0x40)) = false then .nothing
  else if p = 0x70 ∧ s.part ≠ .g24t then .nothing
  else regMap page i

/-- Privileged pages (R67). -/
def privileged (part : Part) (page : Byte) : Bool :=
  decide (0xe0 ≤ page.toNat ∧ page.toNat ≤ 0xf7) || (decide (part = .g24t) && decide (0xf8 ≤ page.toNat ∧ page.toNat ≤ 0xfd))

/-! ## Values -/

/-- SEG of AXSTAT (R165): 0 outside the commanded mode. -/
def segNow (c : AxisCfg) (e : Engine) : BitVec 4 :=
  if c.mode = 0 ∧ (e.st = .ramp ∨ e.st = .stopping) then
    segOf e.vel e.acc (match e.plan with
      | p :: _ => p.j
      | [] => 0)
  else 0

/-- AXSTAT (R191). -/
def axstatWord (c : AxisCfg) (e : Engine) : Word :=
  0#4 ++ segNow c e ++ 0#4 ++ BitVec.ofBool e.posunk ++ BitVec.ofBool e.oshoot ++ BitVec.ofBool e.vclamp
    ++ BitVec.ofBool e.slsat ++ BitVec.ofBool e.outside ++ BitVec.ofBool e.armShown ++ BitVec.ofBool e.attgt ++ 0#1
    ++ BitVec.ofBool e.prej ++ BitVec.ofBool e.tnone ++ BitVec.ofBool e.wrapped ++ BitVec.ofBool e.pin
    ++ BitVec.ofBool e.ven ++ BitVec.ofBool e.en ++ c.mode ++ BitVec.ofBool e.velmv ++ e.st.code

/-- CMPSTAT (R191). -/
def Compare.stat (k : Compare) : Word :=
  k.firecnt ++ 0#12 ++ BitVec.ofBool k.skip ++ BitVec.ofBool k.behind ++ BitVec.ofBool k.fired ++ 0#1

/-- BLSTAT (R37). -/
def Bank.blstat (k : Bank) : Word :=
  k.mir.crcdn ++ k.crcup ++ 0#4 ++ k.view.code ++ 0#4 ++ BitVec.ofBool k.mir.holdover ++ BitVec.ofBool k.mir.lock
    ++ BitVec.ofBool k.lost ++ BitVec.ofBool k.miss

/-- PWMSTAT (R332). -/
def BankRegs.pwmstat (m : BankRegs) : Word := m.pappl ++ 0#6 ++ m.forced ++ 0#7 ++ BitVec.ofBool m.spend

/-- SAFELAT (R332). -/
def BankRegs.safelat (m : BankRegs) : Word := 0#22 ++ BitVec.ofBool m.fltlvl ++ BitVec.ofBool m.stoplvl ++ 0#3 ++ m.lat

/-- QSTAT (R393). -/
def Queue.qstat (q : Queue) : Word :=
  q.ovf ++ BitVec.ofBool q.en ++ BitVec.ofBool q.ovfEv ++ q.lout ++ BitVec.ofNat 10 q.fifo.length

/-- ASTAT (R393). -/
def Queue.astat (q : Queue) (seqlen : Bool) : Word :=
  q.ovf ++ BitVec.ofBool q.en ++ BitVec.ofBool q.ovfEv ++ q.lout ++ BitVec.ofBool seqlen ++ BitVec.ofNat 9 q.fifo.length

/-- ASEQ (R393). -/
def AuxSeq.word (a : AuxSeq) : Word := a.pass ++ 0#3 ++ BitVec.ofNat 5 a.slot ++ 0#15 ++ BitVec.ofBool a.running

/-- PESTATE (R443). -/
def PEState.code : PEState → BitVec 4
  | .off => 0
  | .precharge => 1
  | .ramp => 2
  | .run => 3
  | .refused => 4
  | .discharge => 5

/-- PESTAT (R443). -/
def Entry.pestat (e : Entry) : Word :=
  e.vmains ++ e.cause ++ e.st.code ++ 0#3 ++ BitVec.ofBool e.vauxok ++ BitVec.ofBool e.chopon ++ BitVec.ofBool e.disch
    ++ BitVec.ofBool e.inlim ++ BitVec.ofBool e.mainsok

/-- KPSTAT (R443). -/
def Keep.kpstat (k : Keep) : Word :=
  k.vkeep ++ k.kntct ++ 0#5 ++ BitVec.ofBool k.kchg ++ BitVec.ofBool k.klost ++ BitVec.ofBool k.kntcok

/-- XSTAT (R509). -/
def State.xstat (s : State) : Word :=
  0#8 ++ s.mem.polls ++ 0#4 ++ BitVec.ofBool s.mem.busy[3].isSome ++ BitVec.ofBool s.mem.busy[2].isSome
    ++ BitVec.ofBool s.mem.busy[1].isSome ++ BitVec.ofBool s.mem.busy[0].isSome ++ BitVec.ofBool s.mem.wpage.isSome
    ++ BitVec.ofBool s.mem.cur.isSome ++ (s.wA 0 0x7100 0).extractLsb' 0 1 ++ 0#5

/-- NVSTAT (R546). -/
def Nv.nvstat (v : Nv) : Word :=
  v.nstores ++ BitVec.ofBool v.setOk ++ BitVec.ofBool v.setNo ++ BitVec.ofBool v.gapPend ++ 0#2 ++ v.rhead

/-- The set in force. -/
def Nv.setNow (v : Nv) : ConfigSet := if v.setNo then v.sets[1] else v.sets[0]

/-- PAIRSTAT (R547). -/
def Pair.stat (p : Pair) : Word :=
  p.ptick ++ p.pboot ++ BitVec.ofBool p.pclass4 ++ BitVec.ofBool p.palive ++ p.carry ++ p.hbmiss ++ p.tbanks

/-- NODE of ID: the name of the node by its pins; 0 on single-node parts (R7, R73). -/
def State.nodeName (s : State) : BitVec 4 := if s.part = .g24t ∧ s.isN1 then 1 else 0

/-- ID (R3, R73). -/
def State.idWord (s : State) : Word := 0xc6#8 ++ s.part.code ++ s.nodeName ++ 1#4 ++ 2#4 ++ s.boot

/-- FWVER (R73, R524). -/
def State.fwverWord (s : State) : Word :=
  if s.boot = 0 then 0 else (s.nv.version &&& 0xfffffff0) ||| (if s.nv.src = .slotB then 1 else 0)

/-- nIRQ and nERR as HLSTAT shows them, and the flags of R64 below RDY and WRES. -/
def State.hlstatLow (s : State) (rdy : Bool) (wres : BitVec 2) : Byte :=
  BitVec.ofBool rdy ++ wres ++ BitVec.ofBool s.link.ovrun ++ BitVec.ofBool s.link.winerr ++ BitVec.ofBool s.link.part
    ++ BitVec.ofBool s.nerr ++ BitVec.ofBool s.nirq

/-- HLSTAT as data: RDY reads 1, WRES as it stands (R64, R65). -/
def State.hlstat (s : State) : Word :=
  s.link.partcnt ++ s.link.rejcnt ++ BitVec.ofBool s.link.rej ++ 0#7 ++ s.hlstatLow true s.link.wres

/-- Key of a pair shadow or holding register: page and low index. -/
def pairKey (page : Byte) (i : Nat) : Nat := page.toNat * 128 + i

/-- Banks whose apply flag is requested (R318). -/
def State.bpend (s : State) : Word := bitsOf 6 fun b => s.banks[(Fin.ofNat 12 b : BankId)].batchReq

/-- The word that a register reads (R82); the high word of a pair reads its shadow (R85). -/
def State.regRead (s : State) (page : Byte) (i : Nat) : Reg → Word
  | .nothing => 0
  | .id => s.idWord
  | .fwver => s.fwverWord
  | .hlcfg => 0#26 ++ s.link.dlanes ++ 0#2 ++ s.link.clanes
  | .hlstat => s.hlstat
  | .hlsync => 0#16 ++ s.link.landed
  | .compat => 0#30 ++ BitVec.ofBool s.link.cmptpin ++ BitVec.ofBool s.link.sframe
  | .nstat => s.fn.nstat
  | .irq k => s.irqSummary k
  | .ie k => s.fn.ie[k]
  | .nerrctl => s.fn.nerrctl
  | .batch => 0
  | .batchstat => s.batchTick ++ 0#2 ++ s.bpend.extractLsb' 0 6 ++ 0#2 ++ s.bdrop.extractLsb' 0 6
  | .fstatus b => (s.block b).status
  | .fen b => (s.block b).fen
  | .frx b => (s.block b).frx
  | .fack b => (s.block b).fack
  | .cmd m k => s.mbx[m].cmd[k]
  | .rsp m k => s.mbx[m].rsp[k]
  | .mbctl m => 0#23 ++ BitVec.ofBool s.mbx[m].ien ++ 0#8
  | .mbstat m =>
    let x := s.mbx[m]
    x.ringcnt ++ x.refcnt ++ 0#12 ++ BitVec.ofBool x.refused ++ BitVec.ofBool x.cirq ++ x.state
  | .pos n false => (word64 s.axes[n].eng.ipos).extractLsb' 0 32
  | .pos _ true => cellGet 0 (pairKey page (i - 1)) s.link.shadow
  | .vel n => BitVec.ofInt 32 s.axes[n].eng.velQ
  | .accp n => BitVec.ofInt 32 s.axes[n].eng.accR
  | .axstat n => axstatWord (s.axisCfg n) s.axes[n].eng
  | .cmpval n false => (word64 s.axes[n].cmp.val).extractLsb' 0 32
  | .cmpval _ true => cellGet 0 (pairKey page (i - 1)) s.link.shadow
  | .cmpctl n => 0#22 ++ s.axes[n].cmp.dir ++ 0#7 ++ BitVec.ofBool s.axes[n].cmp.arm
  | .cmpint n => s.axes[n].cmp.int
  | .cmpstat n => s.axes[n].cmp.stat
  | .icmd n => 0#4 ++ BitVec.ofNat 12 s.axes[n].cur.imag ++ 0#4 ++ BitVec.ofInt 12 (s.axes[n].cur.bEff.fdiv 20)
  | .i2tstat n =>
    let k := s.axes[n].cur
    BitVec.ofBool k.lock ++ BitVec.ofBool k.derating ++ BitVec.ofBool k.bscale ++ 0#10 ++ BitVec.ofNat 19 (k.acct / 10000000)
  | .curword n k => s.axes[n].cur.words[k]
  | .obs n k => if k = 0 then s.axes[n].obn.la else if k = 1 then s.axes[n].obn.ra else s.axes[n].obn.tqw
  | .homestat n => s.axes[n].obn.homestat
  | .blstat b => s.banks[b].blstat
  | .pwmstat b => s.banks[b].mir.pwmstat
  | .pulseadj b => s.banks[b].mir.pulseadj
  | .safelat b => s.banks[b].mir.safelat
  | .legflt b p => s.banks[b].mir.legflt[p]
  | .armstat b => s.banks[b].mir.arm
  | .sparestat b => s.banks[b].mir.spare
  | .qstat b => s.banks[b].queue.qstat
  | .fb n k =>
    let f := s.fbs[n]
    if k = 0 then f.count else if k = 1 then f.trk else if k = 2 then f.speed (s.fbCfg n) s.now
    else if k = 3 then f.stat (s.fbCfg n).mode else if k = 4 then f.idxpos else f.xdev ++ f.idxd
  | .swraw n => s.fbs[n].swraw
  | .emstat n => s.emuStat n
  | .astat => s.auxq.astat s.auxs.seqlen
  | .aseq => s.auxs.word
  | .kdie => s.kiln.kdie
  | .ksum b => if s.present b then s.kiln.ksum[b] else 0
  | .kstat b => if s.present b then s.kiln.shown[b] else 0
  | .pestat => s.entry.pestat
  | .pebus => s.entry.vbus ++ s.entry.cbus
  | .pepwr => s.entry.pin ++ BitVec.ofNat 16 s.entry.pbud
  | .peacc => BitVec.ofNat 16 s.entry.dacc ++ BitVec.ofNat 16 s.entry.ovacc
  | .kpstat => s.keep.kpstat
  | .xstat => s.xstat
  | .xaddr => s.mem.xaddr
  | .xholds => s.mem.xholds
  | .nvstat => s.nv.nvstat
  | .nvseq => if s.nv.setOk then s.nv.setNow.seq else 0
  | .rskip => s.nv.rskip
  | .pcstat => s.perf.tdrop ++ 0#6 ++ BitVec.ofNat 10 s.perf.fifo.length
  | .bwseq => s.perf.bwseq
  | .bw k => s.perf.result.toList.getD k 0
  | .gpin => 0#16 ++ s.gpio.lvl
  | .gpout => 0#16 ++ s.gpio.out
  | .pairstat => s.pair.stat

/-- The word at an index of an ordinary page. -/
def State.wordAt (s : State) (page : Byte) (i : Nat) : Word := s.regRead page i (s.regAt page i)

end Sys2Proof.Machine
end

