-- ==== Sys2Proof/Machine/Reset.lean ====
section
/-! DEFINITION. What a block reset does, shared by RESET_BLOCK and the block-reset reaction (R155, R471, R474). -/
namespace Sys2Proof.Machine

/-- The fault block that a target names, if it owns one (R464). -/
def Target.block? : Target → Option BlockId
  | .node => some .node
  | .bank b => some (.bank b)
  | .axis n => some (.axis n)
  | .phase n phB => some (.phase n phB)
  | .fb n => some (.fb n)
  | .emu n => some (.emu n)
  | .aux => some .aux
  | .kiln => some .kiln
  | .entry => some .entry
  | .memPort => some .memPort
  | .nvStore => some .nvStore
  | .perf => none
  | .gpio => none
  | .mailboxEngine => some .mailboxEngine
  | .hostLink => some .hostLink
  | .stream n => some (.stream n)

/-- The target that a fault block is reset by (R474). -/
def BlockId.target : BlockId → Target
  | .node => .node
  | .hostLink => .hostLink
  | .mailboxEngine => .mailboxEngine
  | .kiln => .kiln
  | .entry => .entry
  | .memPort => .memPort
  | .nvStore => .nvStore
  | .aux => .aux
  | .fb n => .fb n
  | .emu n => .emu n
  | .bank b => .bank b
  | .conv b => .bank b
  | .axis n => .axis n
  | .phase n phB => .phase n phB
  | .stream n => .stream n

/-- Whether a parameter key belongs to a block whose staged values a reset discards (R91, R155). -/
def Target.owns (t : Target) (key : Nat) : Bool :=
  let i := keyIdent key
  let u := keyUnit key
  match t with
  | .bank b => decide (u = b.val) && (decide (i / 4096 = 2) || decide (0x6000 ≤ i ∧ i < 0x6200))
  | .axis n => decide (u = n.val) && decide (i / 4096 = 3) && decide (i / 256 ≠ 0x33)
  | .stream n => decide (u = n.val) && decide (i / 256 = 0x33)
  | .phase n phB => decide (i / 4096 = 4) && decide (u = 2 * n.val + (if phB then 1 else 0))
  | .fb n => decide (u = n.val) && decide (0x5000 ≤ i ∧ i < 0x5800)
  | .emu n => decide (u = n.val) && decide (0x5800 ≤ i ∧ i < 0x5f00)
  | .aux => decide (0x6800 ≤ i ∧ i < 0x6a00)
  | .memPort => decide (i / 4096 = 7)
  | .kiln => decide (i = 0x1300)
  | .entry => decide (i = 0x1400)
  | .perf => decide (0x1600 ≤ i ∧ i < 0x1700)
  | .gpio => decide (0x1700 ≤ i ∧ i < 0x1800)
  | _ => false

/-- Status values, event flags and counters of a queue return to reset (R155, R393). -/
def Queue.resetStatus (q : Queue) : Queue := { q with ovf := 0, ovfEv := false, lout := 0, prevOut := 0 }

/-- Event flags and status values of an engine return to reset; position, target and `POSUNK` stay (R155). -/
def Engine.resetStatus (e : Engine) : Engine :=
  { e with attgt := false, side := 0, velmv := false, vclamp := false, slsat := false, outside := false, wrapped := false,
           tnone := false, prej := false, armed := none, staged := none, setPos := none, trig := false,
           modeWrite := false, limWrite := false, cfgWrite := false }

/-- Event flags and counters of a compare return to reset (R155). -/
def Compare.resetStatus (k : Compare) : Compare := { k with firecnt := 0, skip := false, behind := false, fired := false }

/-- Homing status returns to reset (R155, R296). -/
def ObsNode.resetStatus (o : ObsNode) : ObsNode :=
  { o with hstate := .idle, hcause := 0, probe := false, hpend := none, hgo := false, blindRun := 0, blindUp := false }

/-- The node's part of a block reset: status, flags and counters of the block (R155). -/
def State.resetStatus (t : Target) (s : State) : State :=
  match t with
  | .bank b =>
    s.modBank b fun k => { k with crcup := 0, lost := false, miss := false, queue := k.queue.resetStatus,
                                  mir := { k.mir with crcdn := 0, pulseadj := 0 } }
  | .axis n =>
    s.modAxis n fun a => { a with eng := a.eng.resetStatus, cmp := a.cmp.resetStatus, obn := a.obn.resetStatus,
                                  fol := { a.fol with sdpulses := 0 }, slive := { a.slive with pulses := 0 } }
  | .phase _ _ => s
  | .stream n =>
    s.modAxis n fun a => { a with str := { a.str with played := 0, refd := false, half := none },
                                  fol := { a.fol with lag := 0, lagOver := false, sdpulses := 0 },
                                  slive := { a.slive with played := 0, lag := 0, pulses := 0 } }
  | .fb n => s.fbEvent n (FbChan.resetBlock (s.fbCfg n) s.now)
  | .emu n => s.modEmu n fun e => { e with lagUp := false }
  | .aux => { s with auxq := s.auxq.resetStatus, auxs := { s.auxs with seqlen := false, pass := 0 } }
  | .kiln => s
  | .entry => { s with keep := { s.keep with klost := false } }
  | .memPort => { s with mem := { s.mem with polls := 0, xaddr := 0, xholds := 0 } }
  | .nvStore => { s with nv := { s.nv with nstores := 0, rskip := 0 } }
  | .perf => { s with perf := { s.perf with fifo := [], recno := 0, tdrop := 0, bwseq := 0, count := Vector.replicate 15 0,
                                             result := Vector.replicate 15 0 } }
  | .gpio => s
  | .node => s
  | .mailboxEngine => s
  | .hostLink => s

/-- Proofs that a block owns (R102). -/
def Target.proofs : Target → List ProofId
  | .bank b => [.bank b]
  | .axis n => [.axisN n, .axisB n]
  | _ => []

/-- The register operation by which a block reset reaches the bank (R155). -/
def Target.resetOp : Target → Option (BankId × RegOp)
  | .bank b => some (b, .resetBank)
  | .axis n => some (bankOf n, .resetAxis (posOf n))
  | .phase n phB => some (bankOf n, .resetPhase (posOf n) phB)
  | _ => none

/-- A block reset in the node: fault status and pending classes, status, staged values, Proofs; the bank's part
follows as a register operation where the bank is reached (R155, R471, R102). -/
def State.resetTarget (t : Target) (mb : Option MbId) (s : State) : State :=
  let s1 := match t.block? with
    | some i => s.modBlock i FBlock.reset
    | none => s
  let s2 := match t with
    | .bank b => s1.modBlock (.conv b) FBlock.reset
    | _ => s1
  let s3 := s2.resetStatus t
  let s4 := { s3 with nodeP := s3.nodeP.discardWhere t.owns }
  let s5 := s4.openProofs t.proofs
  match t.resetOp with
  | some (b, op) => if s5.linked b then s5.queueOp b op 1 mb else s5
  | none => s5

end Sys2Proof.Machine
end

