-- ==== Sys2Proof/Machine/Params.lean ====
section
/-! DEFINITION. Reading and writing parameters by command (05_command_set.md R139, R146 to R149; the state-dependent
conditions of R162, R218, R241, R261, R315, R385, R416, R489). -/
namespace Sys2Proof.Machine

/-! ## Allocation (R239, R241) -/

/-- IALLOC for a value of WPERA (R239). -/
def State.iallocAt (s : State) (wpera : Nat) : Nat := s.entry.palloc * 500 / wpera

/-- IALLOC (R239). -/
def State.ialloc (s : State) : Nat := s.iallocAt (s.pA 0 0x1100 0)

/-- Counted value of an axis in twentieths of a code with a staged budget (R241). -/
def State.counted (s : State) (n : AxisId) (staged : Nat) : Int :=
  max (max (20 * (staged : Int)) (20 * (s.pA n.val 0x3405 0 : Int))) s.axes[n].cur.bEff

/-- ISUM in twentieths of a code, with the staged budget of one axis replaced (R241). -/
def State.isum20 (s : State) (repl : AxisId → Nat) : Int :=
  s.presentAxes.foldl (fun a n => a + s.counted n (repl n)) 0

/-- ISUM in whole codes, rounded up (R241). -/
def State.isum (s : State) : Nat := ((s.isum20 fun n => s.pS n.val 0x3405 0) + 19).toNat / 20

/-- Whether a write of IBUDGET is refused for the budget (R241). -/
def State.budgetRefused (s : State) (n : AxisId) (v : Nat) : Bool :=
  decide (s.counted n (s.pS n.val 0x3405 0) < s.counted n v) &&
    decide (s.ialloc < ((s.isum20 fun k => if k = n then v else s.pS k.val 0x3405 0) + 19).toNat / 20)

/-! ## Live values -/

/-- STATE of an axis Proof: OPEN while either half is, otherwise the node half's (R105; log 32). -/
def Proofs.axisState (q : Proofs) (n : AxisId) : ProofState :=
  if q.axisN[n].state = .open_ ∨ q.axisB[n].state = .open_ then .open_ else q.axisN[n].state

/-- Code of a Proof state (R105). -/
def ProofState.code : ProofState → BitVec 2
  | .open_ => 0
  | .sealed => 1
  | .loaded => 2

/-- The state word of a Proof (R105). -/
def proofWord (st : ProofState) (p : Proof) (bmis : Bool) : Word :=
  0#8 ++ p.miscnt ++ 0#12 ++ BitVec.ofBool bmis ++ BitVec.ofBool p.mis ++ st.code

/-- Word w of a pair. -/
def pick (l : List Word) (w : Nat) : Word := l.getD w 0

/-- Words of a 64-bit value, low first. -/
def words64 (v : BitVec 64) : List Word := [v.extractLsb' 0 32, v.extractLsb' 32 32]

/-- A node-held live word (R105, R106, R163, R219, R262, R301, R417). -/
def State.liveWord (s : State) (t : Target) (ident w : Nat) : Word :=
  match t with
  | .node =>
    if ident = 0x1f00 then proofWord s.proofs.node.state s.proofs.node false
    else if ident = 0x1f01 then s.proofs.node.ref
    else if ident = 0x1f02 then s.proofs.node.computed
    else if ident = 0x1f10 then BitVec.ofNat 32 s.ialloc
    else BitVec.ofNat 32 s.isum
  | .bank b =>
    let p := s.proofs.bank[b]
    if ident = 0x2f00 then proofWord p.state p false else if ident = 0x2f01 then p.ref else p.computed
  | .axis n =>
    let e := s.axes[n].eng
    let q := s.axes[n].slive
    let p := s.proofs.axisN[n]
    let h := s.proofs.axisB[n]
    if ident = 0x3f00 then proofWord (s.proofs.axisState n) p h.mis
    else if ident = 0x3f01 then p.ref
    else if ident = 0x3f02 then p.computed
    else if ident = 0x3f03 then h.ref
    else if ident = 0x3f04 then h.computed
    else if ident = 0x3f10 then pick (words64 (word64 e.ipos)) w
    else if ident = 0x3f11 then BitVec.ofInt 32 e.velQ
    else if ident = 0x3f12 then BitVec.ofInt 32 e.accR
    else if ident = 0x3f13 then pick (words64 (word64 e.target)) w
    else if ident = 0x3f14 then axstatWord (s.axisCfg n) e
    else if ident = 0x3f15 then
      pick ([e.limits.vmax, e.limits.acc, e.limits.dec, e.limits.jerk].map fun (x : Nat) => BitVec.ofNat 32 x) w
    else if ident = 0x3f20 then pick (words64 (word64 q.sdacc)) w
    else if ident = 0x3f21 then q.pulses
    else if ident = 0x3f22 then q.status
    else if ident = 0x3f23 then pick (words64 (BitVec.ofNat 64 q.played)) w
    else if ident = 0x3f24 then BitVec.ofInt 32 q.lag
    else if ident = 0x3f25 then BitVec.ofNat 32 q.time
    else if ident = 0x3f26 then pick [BitVec.ofNat 32 q.next, BitVec.ofNat 32 q.left] w
    else if ident = 0x3f28 then (s.block (.stream n)).status
    else pick (words64 (word64 s.axes[n].obn.homepos)) w
  | .fb n => s.regRead 0 0 (.fb n (ident - 0x5f00))
  | .emu n => s.regRead 0 0 (.emstat n)
  | _ => 0

/-! ## Checks shared by reads and writes (R139) -/

/-- What an identifier names: a parameter that can be written, or a live one. -/
inductive Ident where
  | param (d : PDef)
  | live (d : LDef)

/-- Looks an identifier up. -/
def identOf (i : Nat) : Option Ident :=
  match findParam i with
  | some d => some (.param d)
  | none => (findLive i).map .live

/-- Width of a parameter in words. -/
def Ident.width : Ident → Nat
  | .param d => d.width
  | .live d => d.width

/-- Scope of a parameter. -/
def Ident.scope : Ident → Scope
  | .param d => d.scope
  | .live d => d.scope

/-- Whether the bank holds it. -/
def Ident.bankHeld : Ident → Bool
  | .param d => d.bankHeld
  | .live d => d.bankHeld

/-- A read or write span: identifier, first word, number of words. -/
structure Span where
  id : Ident
  ident : Nat
  w0 : Nat
  n : Nat

/-- Checks 3 to 5 of R139 for a span; `detN` the payload word that holds the count. -/
def checkSpan (t : Target) (cmd1 : Word) (n : Option Nat) (narrow : Bool) : Except (ECode × Nat) Span :=
  let ident := (cmd1.extractLsb' 0 16).toNat
  let w0 := (cmd1.extractLsb' 16 16).toNat
  match identOf ident with
  | none => .error (.param, 1)
  | some i =>
    if !i.scope.accepts t then .error (.target, 1)
    else if narrow ∧ i.width ≠ 1 then .error (.range, 1)
    else
      let k := match n with
        | some k => k
        | none => if i.width ≤ 15 then i.width else 1
      if k = 0 then .error (.range, 2)
      else if i.width < w0 + k then .error (.range, 1)
      else .ok ⟨i, ident, w0, k⟩

/-! ## Reads (R146, R149) -/

/-- Words of a span as the node holds them. -/
def State.nodeWords (s : State) (t : Target) (sp : Span) (active : Bool) : List Word :=
  (List.range sp.n).map fun i =>
    match sp.id with
    | .live _ => s.liveWord t sp.ident (sp.w0 + i)
    | .param _ =>
      let k := keyOf (unitOf sp.ident t) sp.ident (sp.w0 + i)
      paramGet (if active then s.nodeP.applied else s.nodeP.staged) k

/-- The register operation that reads a span from the bank. -/
def Span.readOp (sp : Span) (t : Target) (active : Bool) : RegOp :=
  match sp.id with
  | .live _ => .live sp.ident (unitOf sp.ident t) sp.w0 sp.n
  | .param _ => .read (keyOf (unitOf sp.ident t) sp.ident sp.w0) sp.n active

/-- GET_PARAM and GET_ACTIVE after their checks (R116, R146, R149). -/
def State.getSpan (m : MbId) (t : Target) (sp : Span) (active : Bool) (s : State) : State :=
  match (if sp.id.bankHeld then t.bank? else none) with
  | none => s.done m (s.nodeWords t sp active)
  | some b =>
    if s.linked b then (s.queueOp b (sp.readOp t active) sp.n (some m)).wait m (.bank b [])
    else match sp.id with
      | .live _ => s.err m .nolink 0
      | .param _ => s.done m (s.nodeWords t sp active)

/-- Payload of a read: span check with the count word, if there is one (R146). -/
def State.getParam (m : MbId) (t : Target) (active narrow : Bool) (s : State) : State :=
  let x := s.mbx[m]
  let n := if x.count = 2 then some ((x.pay 2).extractLsb' 0 4).toNat else none
  match checkSpan t (x.pay 1) n narrow with
  | .error e => s.err m e.1 e.2
  | .ok sp => s.getSpan m t sp active

/-! ## Writes (R147) -/

/-- The axis that a number in a field names, on the node half of the axis `n`. -/
def sameSide (n : AxisId) (k : Nat) : AxisId := Fin.ofNat 48 (n.val / 24 * 24 + k % 24)

/-- Check 6: whether a parameter may be written in the present state (R162, R261, R315). -/
def State.writableNow (s : State) (t : Target) (ident : Nat) (v : Nat → Nat) : Option (ECode × Nat) :=
  match t with
  | .axis n =>
    let e := s.axes[n].eng
    if ident = 0x3006 ∧ ¬ (e.st = .off ∨ e.st = .standby ∨ (e.st = .follow ∧ e.velQ = 0 ∧ e.accR = 0)) then
      some (.state, 1)
    else none
  | .phase n _ => if ident = 0x4100 ∧ s.axes[n].eng.st ≠ .off then some (.state, 1) else none
  | .bank b =>
    if ident = 0x2001 ∧ s.banks[b].view ≠ .service ∧ (List.range 4).any (fun i => fieldN (v 0) (2 * i) 2 = 2) then
      some (.state, 2)
    else none
  | _ => none

/-- Check 7 beyond the parameter's own range: sources that are absent, lanes that are not wired (R162, R218, R385, R416,
R489). -/
def State.valueOk (s : State) (t : Target) (ident : Nat) (v : Nat → Nat) : Bool :=
  match t with
  | .axis n =>
    if ident = 0x3110 then s.axisPresent (sameSide n (fieldN (v 0) 16 5))
    else if ident = 0x3301 ∧ fieldN (v 0) 8 1 = 0 then
      decide (sameSide n (fieldN (v 0) 0 5) ≠ n) && s.axisPresent (sameSide n (fieldN (v 0) 0 5))
    else true
  | .aux => decide (ident ≠ 0x6800) || s.present (Fin.ofNat 12 (fieldN (v 0) 8 3))
  | .emu _ => decide (ident ≠ 0x5800) || decide (fieldN (v 0) 24 1 = 1) || s.axisPresent (Fin.ofNat 48 (fieldN (v 0) 16 5))
  | .memPort => if ident = 0x7101 ∨ ident = 0x7201 then formatOk (fieldN (s.pA 0 0x7000 0) 16 2) (v 0) else true
  | _ => true

/-- Check 8: budgets (R241). -/
def State.budgetOk (s : State) (t : Target) (ident : Nat) (v : Nat → Nat) : Bool :=
  match t with
  | .node => decide (ident ≠ 0x1100) || decide (s.isum ≤ s.iallocAt (v 0))
  | .axis n => decide (ident ≠ 0x3405) || !s.budgetRefused n (v 0)
  | _ => true

/-- The values a write stores: reserved bits cleared (R16), stream codes as stored under R467. -/
def storedValues (part : Part) (d : PDef) (w0 : Nat) (vals : List Word) : List Word :=
  (vals.zipIdx).map fun p =>
    let v := p.1 &&& BitVec.ofNat 32 (d.mask (w0 + p.2))
    if d.ident = 0x3311 then (codesStored (BlockKind.sources part .stream) 0 (v.extractLsb' 0 24)).setWidth 32 else v

/-- Checks 6 to 8 of a write (R139). -/
def State.writeErr (s : State) (t : Target) (d : PDef) (w0 : Nat) (vals : List Word) : Option (ECode × Nat) :=
  let u := unitOf d.ident t
  let inSpan (i : Nat) : Bool := decide (w0 ≤ i ∧ i < w0 + vals.length)
  let new (ident i : Nat) : Nat :=
    if ident = d.ident ∧ inSpan i then (vals.getD (i - w0) 0).toNat else s.pS u ident i
  match s.writableNow t d.ident (new d.ident) with
  | some e => some e
  | none =>
    match (List.range vals.length).find? fun i => !d.ok (w0 + i) (vals.getD i 0).toNat with
    | some i => some (.range, 2 + i)
    | none =>
      match crossBad d.ident new inSpan with
      | some i => some (.range, 2 + (i - w0))
      | none =>
        if !s.valueOk t d.ident (new d.ident) then some (.range, 2)
        else if !s.budgetOk t d.ident (new d.ident) then some (.budget, 2)
        else none

/-- Words of a span land in the node: staged, and applied too where the parameter has no boundary or the node's copy
of a bank's value follows the bank (R82, R91, R118). -/
def Params.putSpan (both : Bool) (unit ident w0 : Nat) (vals : List Word) (p : Params) : Params :=
  (vals.zipIdx).foldl (fun q c =>
    let k := keyOf unit ident (w0 + c.2)
    if both then q.put k c.1 else q.stage k c.1) p

/-- A word of `SEQCFG` or `SLOTS`. -/
def auxFrame (key : Nat) : Bool := decide (keyIdent key = 0x6800 ∨ keyIdent key = 0x6801)

/-- `SEQCFG` as it applies: an `SEQN` above 32 as 32 (R387). -/
def clampSeqn (w : Word) : Word := if 32 < fieldN w.toNat 0 6 then (w &&& 0xffffffc0) ||| 32 else w

/-- The sequencer's staged values apply; an `SEQN` above 32 applies as 32, in both of its registers, and sets `SEQLEN` (R387;
log 26). -/
def State.auxApply (s : State) : State :=
  let k := keyOf 0 0x6800 0
  let w := paramGet s.nodeP.staged k
  let s1 := { s with nodeP := s.nodeP.applyWhere auxFrame }
  { s1 with nodeP := if clampSeqn w = w then s1.nodeP else s1.nodeP.put k (clampSeqn w),
            auxs := { s1.auxs with seqlen := if s1.auxs.cfgNew then decide (clampSeqn w ≠ w) else s1.auxs.seqlen, cfgNew := false } }

/-- Staged values apply at once while the applied `ARUN` is 0; `ARUN` that applies as 1 arms slot 0 of the first pass
(R380, R384, R387). -/
def State.auxLand (s : State) : State :=
  if s.auxs.running then s
  else
    let s1 := s.auxApply
    if fieldN (s1.pA 0 0x6800 0) 6 1 = 1 then
      { s1 with auxs := { s1.auxs with pass := 0, slot := 0, running := true, waiting := true, busy := false } }
    else s1

/-- What the landing of a node-held word does at once: queue enables (R130, R389), channel limits and mode (R407,
R408), comparators judged afresh (R391), a `MODE` write that applies at the next tick edge (R195), the idle sequencer
(R387), an emulation output that could step (R414), a cleared TREN or BWEN (R552, R554). -/
def State.landEffect (t : Target) (ident : Nat) (s old : State) : State :=
  match t with
  | .node =>
    if ident = 0x1600 ∧ fieldN (s.pS 0 0x1600 0) 1 1 = 0 then { s with perf := { s.perf with fifo := [] } }
    else if ident = 0x1602 ∧ fieldN (s.pS 0 0x1602 0) 31 1 = 0 then
      { s with perf := { s.perf with window := false, count := Vector.replicate 15 0 } }
    else s
  | .bank b =>
    if ident = 0x6100 then s.modBank b fun k => { k with queue := k.queue.enable (decide (s.pA b.val 0x6100 0 = 1)) }
    else if ident = 0x6101 then s.modBank b fun k => { k with queue := { k.queue with prevOut := 0 } } else s
  | .aux =>
    if ident = 0x6900 then { s with auxq := s.auxq.enable (decide (s.pA 0 0x6900 0 = 1)) }
    else if ident = 0x6901 then { s with auxq := { s.auxq with prevOut := 0 } }
    else if ident = 0x6800 then { s with auxs := { s.auxs with cfgNew := true } }.auxLand
    else if ident = 0x6801 then s.auxLand else s
  | .fb n =>
    let c := s.fbCfg n
    let s1 := if ident = 0x5000 ∧ c.mode ≠ (old.fbCfg n).mode then s.fbEnter n else s
    if ident = 0x5000 ∨ ident = 0x5002 ∨ ident = 0x5003 then s1.modFb n (FbChan.clamp c) else s1
  | .emu n => s.emuApply n
  | .axis n => s.modAxis n fun a =>
    { a with eng := { a.eng with modeWrite := a.eng.modeWrite || decide (ident = 0x3006),
                                 limWrite := a.eng.limWrite || decide (0x3100 ≤ ident ∧ ident ≤ 0x3102),
                                 cfgWrite := a.eng.cfgWrite || decide (0x3000 ≤ ident ∧ ident ≤ 0x3004) } }
  | _ => s

/-- A checked write: what lands in the node, what goes to the bank, when the command completes (R116, R118, R147). -/
def State.writeSpan (m : MbId) (t : Target) (d : PDef) (w0 : Nat) (vals : List Word) (s : State) : State :=
  let u := unitOf d.ident t
  let both := decide (d.acc = .rw) || decide (d.acc = .packet)
  let s1 := { s with nodeP := s.nodeP.putSpan both u d.ident w0 vals }
  let s2 := s1.openProofs (proofsOf d.ident u)
  match (if d.bankHeld then t.bank? else none) with
  | some b =>
    if s2.linked b then
      (s2.queueOp b (.write (keyOf u d.ident w0) vals) vals.length (some m)).wait m (.bank b [])
    else s2.done m []
  | none =>
    let s3 := s2.landEffect t d.ident s
    let s4 := match t with
      | .axis n => if d.ident = 0x3004 ∧ s3.linked (bankOf n) then
          s3.queueOp (bankOf n) (.write (keyOf u d.ident w0) vals) vals.length none else s3
      | _ => s3
    s4.done m []

/-- SET_PARAM after the header checks (R147). -/
def State.setParam (m : MbId) (t : Target) (narrow : Bool) (s : State) : State :=
  let x := s.mbx[m]
  match checkSpan t (x.pay 1) (some (x.count - 1)) narrow with
  | .error e => s.err m e.1 e.2
  | .ok sp =>
    match sp.id with
    | .live _ => s.err m .readonly 1
    | .param d =>
      let vals := storedValues s.part d sp.w0 ((List.range sp.n).map fun i => x.pay (2 + i))
      match s.writeErr t d sp.w0 vals with
      | some e => s.err m e.1 e.2
      | none => s.writeSpan m t d sp.w0 vals

end Sys2Proof.Machine
end

