-- ==== Sys2Proof/Machine/Mailbox.lean ====
section
/-! DEFINITION. The mailbox engine: which commands exist, header checks, what holds a command back, when a rung command
executes (04_mailboxes_and_ordering.md R107 to R135, 05_command_set.md R136 to R139). -/
namespace Sys2Proof.Machine

/-! ## The command table (R134, R136, R137) -/

/-- Kinds of target. -/
inductive Kind where
  | node | bank | axis | phase | fb | emu | aux | kiln | entry | memPort | nvStore | perf | gpio | mailboxEngine
  | hostLink | stream
  deriving DecidableEq, Repr

/-- Kind of a target. -/
def Target.kind : Target → Kind
  | .node => .node
  | .bank _ => .bank
  | .axis _ => .axis
  | .phase _ _ => .phase
  | .fb _ => .fb
  | .emu _ => .emu
  | .aux => .aux
  | .kiln => .kiln
  | .entry => .entry
  | .memPort => .memPort
  | .nvStore => .nvStore
  | .perf => .perf
  | .gpio => .gpio
  | .mailboxEngine => .mailboxEngine
  | .hostLink => .hostLink
  | .stream _ => .stream

/-- All kinds, for commands whose target is judged by the identifier's level. -/
def allKinds : List Kind :=
  [.node, .bank, .axis, .phase, .fb, .emu, .aux, .kiln, .entry, .memPort, .nvStore, .perf, .gpio, .mailboxEngine,
   .hostLink, .stream]

/-- One command: ABI version, opcode, least and most payload words, kinds accepted, whether the Starter serves it. -/
structure CmdDef where
  abi : Nat
  op : Nat
  lo : Nat
  hi : Nat
  kinds : List Kind
  starter : Bool

/-- The commands of ABI version 2 (R137 and the owning chapters). -/
def commands2 : List CmdDef := [
  ⟨2, 0x000, 0, 0, [.node], true⟩, ⟨2, 0x001, 0, 0, [.node], true⟩, ⟨2, 0x002, 1, 2, allKinds, true⟩,
  ⟨2, 0x003, 2, 15, allKinds, false⟩, ⟨2, 0x004, 1, 2, allKinds, false⟩, ⟨2, 0x005, 0, 1, [.node, .bank, .axis], false⟩,
  ⟨2, 0x006, 0, 0, [.node], false⟩, ⟨2, 0x007, 0, 0, [.node], true⟩, ⟨2, 0x008, 1, 2, [.node, .axis], false⟩,
  ⟨2, 0x009, 1, 1, [.bank], false⟩,
  ⟨2, 0x00a, 0, 0, [.bank, .axis, .phase, .fb, .emu, .aux, .kiln, .entry, .memPort, .nvStore, .perf, .gpio, .stream],
   false⟩,
  ⟨2, 0x00b, 1, 3, [.stream], false⟩, ⟨2, 0x00c, 0, 0, [.stream], false⟩,
  ⟨2, 0x040, 2, 6, [.axis], false⟩, ⟨2, 0x041, 2, 6, [.axis], false⟩, ⟨2, 0x042, 1, 5, [.axis], false⟩,
  ⟨2, 0x043, 0, 1, [.axis], false⟩, ⟨2, 0x044, 2, 2, [.axis], false⟩,
  ⟨2, 0x080, 0, 2, [.stream, .node], false⟩, ⟨2, 0x081, 0, 0, [.stream], false⟩, ⟨2, 0x082, 1, 1, [.stream], false⟩,
  ⟨2, 0x0c0, 0, 0, [.axis], false⟩, ⟨2, 0x0c1, 2, 2, [.axis], false⟩, ⟨2, 0x0c2, 0, 0, [.axis], false⟩,
  ⟨2, 0x100, 0, 1, [.axis], false⟩,
  ⟨2, 0x140, 0, 0, [.node, .bank], false⟩, ⟨2, 0x141, 0, 0, [.bank], false⟩,
  ⟨2, 0x180, 1, 1, [.axis], false⟩, ⟨2, 0x181, 1, 1, [.axis], false⟩,
  ⟨2, 0x1c0, 0, 0, [.bank, .aux], false⟩,
  ⟨2, 0x200, 1, 1, [.fb], false⟩, ⟨2, 0x201, 0, 0, [.fb], false⟩,
  ⟨2, 0x240, 0, 0, [.entry], false⟩, ⟨2, 0x241, 0, 0, [.entry], false⟩,
  ⟨2, 0x280, 1, 1, [.bank], false⟩,
  ⟨2, 0x2c0, 0, 1, [.node], false⟩,
  ⟨2, 0x2c1, 1, 1, [.node, .bank, .axis, .phase, .fb, .emu, .aux, .kiln, .entry, .memPort, .nvStore, .mailboxEngine,
    .hostLink, .stream], false⟩]

/-- The commands of the memory port, the store and the pair (R494, R544). -/
def commands2b : List CmdDef := [
  ⟨2, 0x300, 3, 3, [.memPort], false⟩, ⟨2, 0x301, 2, 15, [.memPort], false⟩, ⟨2, 0x302, 1, 1, [.memPort], false⟩,
  ⟨2, 0x303, 2, 2, [.memPort], false⟩, ⟨2, 0x304, 2, 2, [.memPort], false⟩,
  ⟨2, 0x340, 0, 0, [.node], true⟩, ⟨2, 0x341, 2, 2, [.node], true⟩, ⟨2, 0x342, 2, 15, [.node], true⟩,
  ⟨2, 0x343, 1, 1, [.node], true⟩, ⟨2, 0x344, 1, 1, [.node], true⟩, ⟨2, 0x345, 1, 1, [.node], true⟩,
  ⟨2, 0x346, 0, 0, [.node], true⟩, ⟨2, 0x347, 2, 2, [.node], true⟩, ⟨2, 0x348, 1, 1, [.node], false⟩,
  ⟨2, 0x349, 1, 1, [.node], false⟩, ⟨2, 0x34a, 1, 1, [.node], false⟩, ⟨2, 0x34b, 1, 1, [.node], false⟩,
  ⟨2, 0x34c, 0, 0, [.node], false⟩, ⟨2, 0x34d, 0, 0, [.node], false⟩, ⟨2, 0x34e, 0, 0, [.bank], false⟩]

/-- The commands of ABI version 1 (R134); those named after a command that the Starter serves are served too. -/
def commands1 : List CmdDef := [
  ⟨1, 0x001, 0, 0, [.node], true⟩, ⟨1, 0x002, 1, 1, allKinds, true⟩, ⟨1, 0x003, 2, 2, allKinds, false⟩,
  ⟨1, 0x004, 0, 0, [.node, .bank, .axis], false⟩, ⟨1, 0x005, 0, 0, [.node], false⟩, ⟨1, 0x006, 1, 1, [.axis], false⟩,
  ⟨1, 0x010, 1, 1, [.axis], false⟩, ⟨1, 0x011, 1, 1, [.axis], false⟩, ⟨1, 0x012, 0, 0, [.axis], false⟩,
  ⟨1, 0x01f, 0, 0, [.bank, .axis], false⟩]

/-- The command of an opcode under an ABI version. -/
def findCmd (abi op : Nat) : Option CmdDef :=
  (if abi = 1 then commands1 else commands2 ++ commands2b).find? fun c => c.op = op

/-- Payload range that depends on the target's kind (R137, R153, R221). -/
def CmdDef.rangeFor (c : CmdDef) (k : Kind) : Nat × Nat :=
  if c.abi = 2 ∧ c.op = 0x008 then (if k = .node then (2, 2) else (1, 1))
  else if c.abi = 2 ∧ c.op = 0x080 then (if k = .node then (1, 2) else (0, 1))
  else (c.lo, c.hi)

/-! ## Targets and header checks (R115, R120, R134, R139, R540) -/

/-- Whether a mailbox names the partner's blocks (R540). -/
def State.carries (s : State) (m : MbId) : Bool := decide (4 ≤ m.val) && decide (s.pair.tbanks ≠ 0)

/-- Whether a target is present on this variant (R5). -/
def State.targetPresent (s : State) : Target → Bool
  | .bank b => s.present b
  | .axis n => s.axisPresent n
  | .phase n _ => s.axisPresent n
  | .stream n => s.axisPresent n
  | _ => true

/-- Whether ABI version 1 reaches a target code (R134). -/
def abi1Reaches (code : Byte) : Bool :=
  let c := code.toNat
  decide (c = 0 ∨ (0x10 ≤ c ∧ c ≤ 0x13) ∨ (0x20 ≤ c ∧ c ≤ 0x2f))

/-- The target of the command in a mailbox, if it is present. -/
def State.target? (s : State) (m : MbId) : Option Target :=
  let x := s.mbx[m]
  if x.abi = 1 ∧ abi1Reaches x.tcode = false then none
  else (targetOf (s.carries m) x.tcode).filter s.targetPresent

/-- Whether the Starter serves the opcode in a mailbox (R120, R137). -/
def State.served (s : State) (m : MbId) : Bool :=
  match findCmd s.mbx[m].abi.toNat s.mbx[m].opcode with
  | some c => c.starter
  | none => false

/-- Whether the Starter serves the read of an identifier: node groups 0x0 and 0xF (R146). -/
def Mailbox.starterReads (x : Mailbox) : Bool :=
  let i := ((x.pay 1).extractLsb' 0 16).toNat
  decide (i / 256 = 0x10 ∨ i / 256 = 0x1f)

/-- The error that the header of a rung command meets, if any; its `DETAIL` is 0 (R115, R139 checks 1 and 2). Under the
Starter every opcode that it does not serve completes with NOFW (R137). -/
def State.headErr (s : State) (m : MbId) : Option ECode :=
  let x := s.mbx[m]
  let n := x.count
  if x.abi ≠ 1 ∧ x.abi ≠ 2 then some .abi
  else if 15 < n then some .length
  else if s.boot = 0 ∧ s.served m = false then some .nofw
  else match findCmd x.abi.toNat x.opcode with
    | none => some .opcode
    | some c =>
      match s.target? m with
      | none => some .absent
      | some t =>
        if n < c.lo ∨ c.hi < n then some .length
        else if t.kind ∉ c.kinds then some .target
        else if n < (c.rangeFor t.kind).1 ∨ (c.rangeFor t.kind).2 < n then some .length
        else if s.boot = 0 ∧ c.op = 0x002 ∧ x.starterReads = false then some .nofw
        else none

/-! ## Holding back (R116, R121, R125, R133, R152) -/

/-- A mailbox holds a command that has not completed. -/
def Mailbox.busy (x : Mailbox) : Bool := decide (x.phase ≠ .idle)

/-- A mailbox holds a command that has been rung and not taken. -/
def Mailbox.rung (x : Mailbox) : Bool := decide (x.phase = .rung)

/-- The command is a FENCE. -/
def Mailbox.isFence (x : Mailbox) : Bool := decide (x.abi = 2 ∧ x.opcode = 0x007)

/-- Whether another mailbox holds a command rung before this one that satisfies p. -/
def State.earlier (s : State) (m : MbId) (p : Mailbox → Bool) : Bool :=
  allMbs.any fun k => decide (k ≠ m) && s.mbx[k].busy && decide (s.mbx[k].ring < s.mbx[m].ring) && p s.mbx[k]

/-- What holds a rung command back: an earlier FENCE or version 1 command, earlier commands of its own order, the
preparation of a swap. DEDUCED: a FENCE that waits for earlier commands counts as rung and not taken (log 64). -/
def State.heldBack (s : State) (m : MbId) : Bool :=
  s.earlier m (fun x => x.isFence || decide (x.abi = 1))
    || ((s.mbx[m].isFence || decide (s.mbx[m].abi = 1)) && s.earlier m fun _ => true)
    || (decide (s.boot = 1) && s.nv.swap.isSome)

/-- Whether rung commands are served in the present BOOT state (R120). -/
def State.serving (s : State) : Bool := decide (s.boot = 0 ∨ s.boot = 1)

/-- Whether the command rung in a mailbox is the one named and is taken now. -/
def State.due (s : State) (m : MbId) (abi op : Nat) : Bool :=
  s.mbx[m].rung && s.serving && decide (s.mbx[m].abi.toNat = abi) && decide (s.mbx[m].opcode = op)
    && decide (s.headErr m = none) && !s.heldBack m

/-! ## Completion without execution, and block resets that wait (R115, R155) -/

/-- Whether a taken command of another mailbox for the same block has not completed (R155). -/
def State.blockBusy (s : State) (m : MbId) : Bool :=
  allMbs.any fun k => decide (k ≠ m) && decide (s.mbx[k].tcode = s.mbx[m].tcode)
    && decide (s.carries k = s.carries m) && (match s.mbx[k].phase with
      | .waiting .resetPend => false
      | .waiting _ => true
      | .ended _ _ => true
      | _ => false)

/-- Whether a block reset is under way for the target of a command (R155). -/
def State.resetting (s : State) (m : MbId) : Bool :=
  allMbs.any fun k => decide (k ≠ m) && decide (s.mbx[k].tcode = s.mbx[m].tcode)
    && decide (s.carries k = s.carries m)
    && (s.mbx[k].opcode = 0x00a || (s.mbx[k].abi = 1 && s.mbx[k].opcode = 0x01f))
    && (match s.mbx[k].phase with
      | .waiting _ => true
      | _ => false)

/-- Runs the block reset of a mailbox: the bank's part completes it where the bank is reached (R155). -/
def State.runReset (m : MbId) (s : State) : State :=
  match s.target? m with
  | none => s.err m .absent 0
  | some t =>
    match t.resetOp with
    | some (b, _) => if s.linked b then (s.resetTarget t (some m)).wait m (.bank b []) else (s.resetTarget t none).done m []
    | none => (s.resetTarget t none).done m []

/-- A MEM_XFER or MEM_PROG is running, so that `XBUF` is held (R496). -/
def State.xbufHeld (s : State) : Bool :=
  allMbs.any fun k => match s.mbx[k].phase with
    | .waiting .xfer => true
    | .waiting .prog => decide (s.mbx[k].opcode = 0x303)
    | _ => false

/-- Checks of a span of `XBUF` (R496). -/
def spanErr (off n : Nat) : Bool := decide (n = 0 ∨ off % 4 ≠ 0 ∨ 4096 < off + 4 * n)

/-- Word of `XBUF` at an offset. -/
def MemPort.xword (m : MemPort) (off : Nat) : Word :=
  getByte m.xbuf (off + 3) ++ getByte m.xbuf (off + 2) ++ getByte m.xbuf (off + 1) ++ getByte m.xbuf off

/-- Byte offset in `XBUF` that XBUF_PUT and XBUF_GET name (R496). -/
def Mailbox.xoff (x : Mailbox) : Nat := ((x.pay 1).extractLsb' 0 12).toNat

/-- Words that XBUF_PUT writes or XBUF_GET returns (R496). -/
def Mailbox.xcount (x : Mailbox) : Nat :=
  if x.opcode = 0x301 then x.count - 1 else ((x.pay 1).extractLsb' 28 4).toNat

/-- The effect of XBUF_PUT and of XBUF_GET (R496). -/
def State.xbufRun (m : MbId) (s : State) : State :=
  let x := s.mbx[m]
  if x.opcode = 0x301 then
    ({ s with mem := { s.mem with
        xbuf := putBytes x.xoff ((List.range x.xcount).flatMap fun i => bytesOf 4 (x.pay (2 + i)).toNat) s.mem.xbuf } }).done m []
  else s.done m ((List.range x.xcount).map fun i => s.mem.xword (x.xoff + 4 * i))

/-- XBUF_PUT and XBUF_GET: a span error at once, else they wait, taken, while a MEM_XFER or MEM_PROG runs (R116, R139,
R496). -/
def State.xbufCmd (m : MbId) (_ : Target) (s : State) : State :=
  if spanErr s.mbx[m].xoff s.mbx[m].xcount then s.err m .range 1
  else if s.xbufHeld then s.wait m .xbuf
  else s.xbufRun m

/-- One mailbox: a header error completes a command that nothing holds back; a block reset runs once its block is
free, an access to `XBUF` once no transfer or programming holds it; no taken command runs on during a debug halt (R120). -/
def State.settleOne (m : MbId) (s : State) : State :=
  if s.mbx[m].rung ∧ s.serving ∧ s.heldBack m = false then
    match s.headErr m with
    | some e => s.err m e 0
    | none => s
  else if s.mbx[m].phase = .waiting .resetPend ∧ s.serving ∧ s.blockBusy m = false then s.runReset m
  else if s.mbx[m].phase = .waiting .xbuf ∧ s.serving ∧ s.xbufHeld = false then s.xbufRun m
  else s

/-- Passes over the mailboxes. -/
def State.settleN : Nat → State → State
  | 0, s => s
  | k + 1, s => State.settleN k (s.each allMbs State.settleOne)

/-- Completes every command that a completion has released. -/
def State.settle (s : State) : State := s.settleN 8

/-- A rung command executes: `f` gives its effect for its target, at most once; nothing happens where the mailbox
holds no such command, or something holds it back. -/
def State.run (m : MbId) (abi op : Nat) (f : Target → State → State) (s : State) : State :=
  if s.due m abi op then
    match s.target? m with
    | some t => (if s.resetting m then s.err m .state 0 else f t s).settle
    | none => s
  else s

/-! ## Ringing (R110 to R113, R120, R152) -/

/-- Starts a rung command's life: copy, response, counters (R112). -/
def Mailbox.take (ring : Nat) (x : Mailbox) : Mailbox :=
  { x with copy := x.cmd, rsp := rspOf 1 x.cmd[0] [], ringcnt := x.ringcnt + 1, ring := ring, phase := .rung }

/-- A ring that lands (R112, R113, R120). A FENCE that fails its checks completes at once (R152). -/
def State.ring (m : MbId) (s : State) : State :=
  if s.mbx[m].busy then
    (s.modMb m fun x => { x with refused := true, refcnt := if x.refcnt = 0xff then 0xff else x.refcnt + 1 }).raise
      .mailboxEngine 0
  else
    let s1 := { s.modMb m (Mailbox.take s.ringSeq) with ringSeq := s.ringSeq + 1 }
    if s1.boot = 3 ∧ s1.haltC4 then s1.err m .halted 0
    else if s1.boot = 2 ∨ s1.boot = 3 then s1.err m .busy 0
    else if s1.mbx[m].isFence ∧ (s1.headErr m).isSome then s1.err m ((s1.headErr m).getD .abi) 0
    else s1.settle

/-! ## System commands (R144, R145, R152 to R155) -/

/-- NOP and FENCE complete with no words (R144, R125). -/
def State.noWords (m : MbId) (_ : Target) (s : State) : State := s.done m []

/-- NOP. -/
def execNop (m : MbId) (s : State) : Host.Outcome State Fault Refusal := .next (s.run m 2 0x000 (State.noWords m))

/-- FENCE: every earlier command has completed (R125, R152). -/
def execFence (m : MbId) (s : State) : Host.Outcome State Fault Refusal := .next (s.run m 2 0x007 (State.noWords m))

/-- IDENTIFY (R145). -/
def State.identify (m : MbId) (s : State) : State :=
  let banks := bitsOf 6 fun b => decide (b < s.part.nBanks)
  s.done m [s.idWord, s.fwverWord, Config.starterVersion ++ 0#8 ++ 0x01#8, 0#2 ++ banks.extractLsb' 0 6 ++ 0#24,
    Config.deviceNumber.extractLsb' 0 32, Config.deviceNumber.extractLsb' 32 32,
    0#30 ++ BitVec.ofBool s.nv.fuse ++ BitVec.ofBool (decide (s.part = .g24t)),
    0#31 ++ BitVec.ofBool (decide (s.boot ≠ 0) && decide (s.nv.slots[1].st = .valid))]

/-- IDENTIFY. -/
def execIdentify (m : MbId) (s : State) : Host.Outcome State Fault Refusal :=
  .next (s.run m 2 0x001 fun _ t => t.identify m)

/-- S_IDENT (R134). -/
def execSIdent (m : MbId) (s : State) : Host.Outcome State Fault Refusal :=
  .next (s.run m 1 0x001 fun _ t => t.done m [t.idWord, t.fwverWord, 0, 0])

/-- GET_PARAM (R146). -/
def execGetParam (m : MbId) (s : State) : Host.Outcome State Fault Refusal :=
  .next (s.run m 2 0x002 fun t u => u.getParam m t false false)

/-- S_GET (R134). -/
def execSGet (m : MbId) (s : State) : Host.Outcome State Fault Refusal :=
  .next (s.run m 1 0x002 fun t u => u.getParam m t false true)

/-- GET_ACTIVE (R149). -/
def execGetActive (m : MbId) (s : State) : Host.Outcome State Fault Refusal :=
  .next (s.run m 2 0x004 fun t u => u.getParam m t true false)

/-- SET_PARAM (R147). -/
def execSetParam (m : MbId) (s : State) : Host.Outcome State Fault Refusal :=
  .next (s.run m 2 0x003 fun t u => u.setParam m t false)

/-- S_SET (R134). -/
def execSSet (m : MbId) (s : State) : Host.Outcome State Fault Refusal :=
  .next (s.run m 1 0x003 fun t u => u.setParam m t true)

/-- The virtual enable bits as landed, of the side that a mailbox names (R153, R540). -/
def State.venBits (s : State) (carried : Bool) : Word :=
  bitsOf 24 fun k => s.axes[(Fin.ofNat 48 (k + if carried then 24 else 0) : AxisId)].eng.venNext

/-- Sets a virtual enable bit as landed. -/
def State.setVen (n : AxisId) (v : Bool) (s : State) : State :=
  s.modAxis n fun a => { a with eng := { a.eng with venNext := v } }

/-- ENABLE (R153). -/
def State.enable (m : MbId) (t : Target) (s : State) : State :=
  let x := s.mbx[m]
  let carried := s.carries m
  let axisOf (k : Nat) : AxisId := Fin.ofNat 48 (k + if carried then 24 else 0)
  match t with
  | .axis n =>
    let s1 := s.setVen n ((x.pay 1).getLsbD 0)
    s1.done m [s1.venBits carried]
  | _ =>
    let sel := (List.range 24).filter fun k => (x.pay 1).getLsbD k
    if sel.any fun k => !s.axisPresent (axisOf k) then s.err m .absent 1
    else
      let s1 := s.each sel fun k u => u.setVen (axisOf k) ((x.pay 2).getLsbD k)
      s1.done m [s1.venBits carried]

/-- ENABLE. -/
def execEnable (m : MbId) (s : State) : Host.Outcome State Fault Refusal := .next (s.run m 2 0x008 (State.enable m))

/-- S_ENABLE (R134). -/
def execSEnable (m : MbId) (s : State) : Host.Outcome State Fault Refusal := .next (s.run m 1 0x006 (State.enable m))

/-- Whether RESET_BLOCK is allowed (R155). -/
def State.resetAllowed (s : State) : Target → Bool
  | .bank b => decide (s.banks[b].view = .service)
  | .axis n => s.axes[n].eng.atRest && !s.axes[n].eng.venNext
  | .phase n _ => s.axes[n].eng.atRest && !s.axes[n].eng.venNext
  | .stream n => s.axes[n].str.st.isNone
  | _ => true

/-- RESET_BLOCK (R155). -/
def State.resetBlock (m : MbId) (t : Target) (s : State) : State :=
  if !s.resetAllowed t then s.err m .state 0
  else if s.blockBusy m then s.wait m .resetPend
  else s.runReset m

/-- RESET_BLOCK. -/
def execResetBlock (m : MbId) (s : State) : Host.Outcome State Fault Refusal := .next (s.run m 2 0x00a (State.resetBlock m))

/-- S_RESET (R134). -/
def execSReset (m : MbId) (s : State) : Host.Outcome State Fault Refusal := .next (s.run m 1 0x01f (State.resetBlock m))

/-- SERVICE (R154): the request travels in the control word, 3 for leave. DEDUCED: the STATE error of a command concerns no
payload word, and its `DETAIL` is 0 (R109, R139; log 65). -/
def State.service (m : MbId) (t : Target) (s : State) : State :=
  match t with
  | .bank b =>
    let a := (s.mbx[m].pay 1).extractLsb' 0 2
    let v := s.banks[b].view
    if a = 3 then s.err m .range 1
    else if a = 0 ∧ v ≠ .service then s.err m .state 0
    else if a ≠ 0 ∧ v ≠ .run then s.err m .state 0
    else (s.modBank b fun k => { k with svcReq := if a = 0 then 3 else a }).wait m (.service b a)
  | _ => s.err m .target 0

/-- SERVICE. -/
def execService (m : MbId) (s : State) : Host.Outcome State Fault Refusal := .next (s.run m 2 0x009 (State.service m))

/-! ## COMMIT and STORE (R103, R150, R151) -/

/-- What a COMMIT names: the node, banks, axes (R150). DEDUCED: while the node carries its partner, `ALL` of a node target
names the banks and axes of both sides, whatever the mailbox (log 66). -/
def State.commitNames (s : State) (t : Target) (all : Bool) : Bool × List BankId × List AxisId :=
  match t with
  | .bank b => (false, [b], if all then allPos.map (axisAt b) else [])
  | .axis n => (false, [], [n])
  | _ => (true, if all then s.presentBanks else [], if all then s.presentAxes else [])

/-- COMMIT (R103, R150): waits for the next scan. -/
def State.commitCmd (m : MbId) (t : Target) (s : State) : State :=
  let x := s.mbx[m]
  let all := decide (x.count = 1) && (x.pay 1).getLsbD 0
  let q := s.commitNames t all
  if (q.2.1 ++ q.2.2.map bankOf).any fun b => !s.linked b then s.err m .nolink 0
  else { s.wait m (.commit all) with commits := s.commits ++ [⟨m, q.1, q.2.1, q.2.2, false, false, []⟩] }

/-- COMMIT. -/
def execCommit (m : MbId) (s : State) : Host.Outcome State Fault Refusal := .next (s.run m 2 0x005 (State.commitCmd m))

/-- S_COMMIT (R134). -/
def execSCommit (m : MbId) (s : State) : Host.Outcome State Fault Refusal := .next (s.run m 1 0x004 (State.commitCmd m))

/-- Records of a Proof: its state in the layout of R105 and its reference (R513). -/
def proofRecords (unit ident w : Nat) (p : Proof) : List Record :=
  [⟨keyOf unit ident w, 0#30 ++ p.state.code⟩, ⟨keyOf unit ident (w + 1), p.ref⟩]

/-- Coefficients h3s, h3c and h5s, h5c as two words (R263). -/
def harmWords (h : Vector (BitVec 16) 4) : List Word := [h[0] ++ h[1], h[2] ++ h[3]]

/-- Coefficients in the two payload words of HARM_SET (R263). -/
def harmOf (w0 w1 : Word) : Vector (BitVec 16) 4 :=
  #v[w0.extractLsb' 16 16, w0.extractLsb' 0 16, w1.extractLsb' 16 16, w1.extractLsb' 0 16]

/-- The values of a configuration set taken in one clock: applied values that differ from their defaults, Proofs, spare
maps, offsets, coefficients, for the node's own banks and axes (R151, R513). -/
def State.snapshot (s : State) : List Record :=
  let banks := (List.range s.part.nBanks).map fun b => (Fin.ofNat 12 b : BankId)
  let axes := (List.range (4 * s.part.nBanks)).map fun n => (Fin.ofNat 48 n : AxisId)
  let own (c : Nat × Word) : Bool :=
    let i := keyIdent c.1
    let u := keyUnit c.1
    match findParam i with
    | some d => match d.scope with
      | .bank => decide (u < s.part.nBanks)
      | .conv => decide (u < s.part.nBanks)
      | .axis => decide (u < 4 * s.part.nBanks)
      | .phase => decide (u < 8 * s.part.nBanks)
      | _ => true
    | none => false
  ((s.nodeP.applied.filter own).map fun c => ⟨c.1, c.2⟩)
    ++ proofRecords 0 0x1ff0 0 s.proofs.node
    ++ banks.flatMap (fun b => proofRecords b.val 0x2ff0 0 s.proofs.bank[b]
        ++ [⟨keyOf b.val 0x2ff1 0, s.banks[b].mir.spare⟩]
        ++ (s.banks[b].offsets.toList.zipIdx.map fun p => ⟨keyOf b.val 0x2ff2 p.2, p.1.signExtend 32⟩))
    ++ axes.flatMap (fun n => proofRecords n.val 0x3ff0 0 s.proofs.axisN[n] ++ proofRecords n.val 0x3ff0 2 s.proofs.axisB[n]
        ++ ((harmWords s.axes[n].cur.harm).zipIdx.map fun p => ⟨keyOf n.val 0x3ff1 p.2, p.1⟩))

/-- The response words of STORE, from its snapshot (R151). -/
def State.storeWords (s : State) (set : ConfigSet) : List Word :=
  let st (k : Nat) : Bool := set.records.any fun r => decide (r.key = k) && decide (r.value ≠ 0)
  let nb := s.part.nBanks
  [0#2 ++ (bitsOf 6 fun b => decide (b < nb) && st (keyOf b 0x2ff0 0)).extractLsb' 0 6 ++ 0#23
      ++ BitVec.ofBool (st (keyOf 0 0x1ff0 0)),
   bitsOf 24 fun n => decide (n < 4 * nb) && st (keyOf n 0x3ff0 0) && st (keyOf n 0x3ff0 2)]

/-- STORE (R151, R511, R514): a snapshot, then the writing, which ends with STORE_COMPLETE. -/
def State.storeCmd (m : MbId) (_ : Target) (s : State) : State :=
  if !s.kiln.open_ then s.err m .temp 0
  else
    let seq := (if s.nv.setOk then s.nv.setNow.seq else 0) + 1
    let set : ConfigSet := ⟨false, true, seq, Config.firmwareLayout, s.snapshot⟩
    { s.wait m .store with nv := { s.nv with stores := s.nv.stores ++ [⟨m, set⟩] } }

/-- STORE. -/
def execStore (m : MbId) (s : State) : Host.Outcome State Fault Refusal := .next (s.run m 2 0x006 (State.storeCmd m))

/-- S_STORE (R134). -/
def execSStore (m : MbId) (s : State) : Host.Outcome State Fault Refusal := .next (s.run m 1 0x005 (State.storeCmd m))

end Sys2Proof.Machine
end

