-- ==== Sys2Proof/Machine/AxisCmds.lean ====
section
/-! DEFINITION. Commands and timed events of an axis: harmonic coefficients, the current table, hold delay, I²t, retries,
blind running and the backoff of homing (08_microsteps_and_current.md, 09_load_angle_observer.md,
11_gate_drive_and_legs.md). -/
namespace Sys2Proof.Machine

/-! ## Harmonics and the table (R265 to R267, R232) -/

/-- Sends coefficients to the bank of an axis (R265, R266). -/
def State.sendHarm (m : MbId) (n : AxisId) (h : Vector (BitVec 16) 4) (s : State) : State :=
  (s.queueOp (bankOf n) (.harm (posOf n) h) 2 (some m)).wait m (.bank (bankOf n) [])

/-- Whether the bank of an axis takes coefficients (R265). -/
def State.harmLink (s : State) (n : AxisId) : Bool :=
  decide (s.banks[bankOf n].view = .run ∨ s.banks[bankOf n].view = .service)

/-- HARM_CLEAR (R266). -/
def State.harmClear (m : MbId) (t : Target) (s : State) : State :=
  match t with
  | .axis n => if s.harmLink n then s.sendHarm m n (Vector.replicate 4 0) else s.err m .nolink 0
  | _ => s.err m .target 0

/-- HARM_CLEAR. -/
def execHarmClear (m : MbId) (s : State) : Host.Outcome State Fault Refusal := .next (s.run m 2 0x0c0 (State.harmClear m))

/-- HARM_SET (R266): values within the `HLMAX` that the bank applies, then a link (R139, R265). -/
def State.harmSet (m : MbId) (t : Target) (s : State) : State :=
  match t with
  | .axis n =>
    let x := s.mbx[m]
    let h := harmOf (x.pay 1) (x.pay 2)
    let lim := fieldN (s.bA n.val 0x3414 0) 16 16
    let beyond (i j : Fin 4) : Bool := decide (lim < h[i].toInt.natAbs ∨ lim < h[j].toInt.natAbs)
    if beyond 0 1 then s.err m .range 1
    else if beyond 2 3 then s.err m .range 2
    else if !s.harmLink n then s.err m .nolink 0
    else s.sendHarm m n h
  | _ => s.err m .target 0

/-- HARM_SET. -/
def execHarmSet (m : MbId) (s : State) : Host.Outcome State Fault Refusal := .next (s.run m 2 0x0c1 (State.harmSet m))

/-- The node's copy of a table takes the default entries (R267). -/
def State.defaultTable (n : AxisId) (s : State) : State :=
  { s with nodeP := (List.range 128).foldl (fun p j => p.put (keyOf (2 * n.val) 0x4100 j) (sineWord j)) s.nodeP }

/-- TABLE_DEFAULT (R265, R267): the words travel as one write of 128 slots; without a link the node holds them (R116).
-/
def State.tableDefault (m : MbId) (t : Target) (s : State) : State :=
  match t with
  | .axis n =>
    let b := bankOf n
    if s.axes[n].eng.st ≠ .off then s.err m .state 0
    else
      let s1 := (s.defaultTable n).openProofs [.axisB n]
      if s1.linked b then (s1.queueOp b (.table (posOf n)) 128 (some m)).wait m (.tableDefault b) else s1.done m []
  | _ => s.err m .target 0

/-- TABLE_DEFAULT. -/
def execTableDefault (m : MbId) (s : State) : Host.Outcome State Fault Refusal :=
  .next (s.run m 2 0x0c2 (State.tableDefault m))

/-- HARMONIC_COPY_REFRESH (R232): once every 1024 ticks, the coefficients of every axis become due in the low-priority
scan of the banks that the node reaches. -/
def State.harmRefresh (s : State) : State :=
  if s.tick % 1024 = 0 then
    s.each s.presentBanks fun b t => if t.linked b then t.modBank b fun k => { k with harmDue := 0xf } else t
  else s

/-- HARMONIC_COPY_REFRESH. -/
def execHarmonicCopyRefresh (s : State) : Host.Outcome State Fault Refusal := .next s.harmRefresh

/-! ## Timed events of the current (R235, R245) -/

/-- HOLD_DELAY_EXPIRE (R235): the delay ends with the tick edge to come, which forms the state current from `IHOLD`; the edge
judges the delay by the `HOLDDLY` that applies there (R238). -/
def execHoldDelayExpire (n : AxisId) (s : State) : Host.Outcome State Fault Refusal :=
  let a := s.axes[n]
  if a.eng.st = .standby ∧ 20 * (s.curCfg n).holddly ≤ a.cur.holdT + s.units then
    .next (s.modAxis n fun x => { x with cur := { x.cur with holdDone := true } })
  else .next s

/-- I2T_EMPTY (R245): the cap begins to fall from the magnitude of the edge. -/
def execI2tEmpty (n : AxisId) (s : State) : Host.Outcome State Fault Refusal :=
  if s.axes[n].cur.i2tDue then
    .next ((s.modAxis n fun x => { x with cur := { x.cur with
      i2tDue := false, derating := true, fallFrom := max 2000 x.cur.imag, fallT := 0 } }).raise (.axis n) 15)
  else .next s

/-- I2T_REFILLED (R245): the cap returns at 180,000 units. -/
def execI2tRefilled (n : AxisId) (s : State) : Host.Outcome State Fault Refusal :=
  let k := s.axes[n].cur
  if k.lock ∧ 1800000000000 ≤ k.acct then
    .next (s.modAxis n fun x => { x with cur := { x.cur with lock := false } })
  else .next s

/-! ## Retries and blind running (R290, R358) -/

/-- TRIES_RESET (R358): energised for 10 s with no gate fault. -/
def execTriesReset (n : AxisId) (s : State) : Host.Outcome State Fault Refusal :=
  if 200000 ≤ s.axes[n].legn.energT ∧ s.linked (bankOf n) then
    .next ((s.modAxis n fun a => { a with legn := { a.legn with energT := 0 } }).queueOp (bankOf n) (.tries (posOf n)) 1 none)
  else .next s

/-- BLINDMV (R290). -/
def execBlindmv (n : AxisId) (s : State) : Host.Outcome State Fault Refusal :=
  let lim := fieldN (s.pA n.val 0x3500 0) 16 16
  let o := s.axes[n].obn
  if lim ≠ 0 ∧ 20 * lim < o.blindRun ∧ o.blindUp = false then
    .next ((s.modAxis n fun a => { a with obn := { a.obn with blindUp := true } }).raise (.axis n) 20)
  else .next s

/-! ## Homing backoff (R292, R293) -/

/-- HOMING_BACKOFF (R292, R293): the `STLATCH` read has returned, and the tick edge to come is the contact edge plus two ticks
or a later one: it is the BACKOFF edge. -/
def State.homingBackoff (n : AxisId) (s : State) : State :=
  let a := s.axes[n]
  if a.obn.hread.isSome ∧ a.obn.hstate = .contact ∧ 1 ≤ a.obn.hwait ∧ a.eng.st = .frozen then
    s.modAxis n fun a => { a with obn := { a.obn with hgo := true } }
  else s

/-- HOMING_BACKOFF. -/
def execHomingBackoff (n : AxisId) (s : State) : Host.Outcome State Fault Refusal := .next (s.homingBackoff n)

end Sys2Proof.Machine
end

