-- ==== Sys2Proof/Machine/Link.lean ====
section
/-! DEFINITION. The host link: writes received, accepted, posted and landed, reads with their status byte, privileged
pages, lane settings and S-framing (02_host_link.md R49 to R81, R599; 03_register_behaviour.md R82 to R98). -/
namespace Sys2Proof.Machine

/-! ## Transactions -/

/-- The first word of a transaction takes the lane counts and the framing in force from its command byte (R74). -/
def Link.begin (nth : Nat) (l : Link) : Link :=
  if nth = 0 then { l with dlanesF := l.dlanes, clanesF := l.clanes, sframeF := l.sframe, statusOut := none, wordsOut := [],
                             winRaised := false }
  else l

/-- Begins a word of a transaction. -/
def State.beginWord (nth : Nat) (s : State) : State := { s with link := s.link.begin nth }

/-- While the node is unpowered, its lanes are high-impedance: no word reaches it and none is sent (R81). -/
def State.onLink (f : State → State) (s : State) : State := if s.powered then f s else s

/-- Native index of an S-framed half, and whether it is the high half (R77); 0x7E holds nothing. -/
def halfIndex (i : Nat) : Option (Nat × Bool) := if i < 0x7e then some (i / 2, decide (i % 2 = 1)) else none

/-- Bits that a half carries. -/
def halfMask (hi : Bool) : Word := if hi then 0xffff0000 else 0x0000ffff

/-- Place of a word or half in the page: native index, data in place, mask (R55, R66, R77); none past the end. -/
def Link.place (l : Link) (index : Nat) (word : Word) : Option (Nat × Word × Word) :=
  if l.sframeF then
    match halfIndex index with
    | some (j, hi) => some (j, (if hi then word <<< 16 else word) &&& halfMask hi, halfMask hi)
    | none => none
  else if index ≤ 0x7e then some (index, word, 0xffffffff)
  else none

/-- Bytes of one data word in the framing in force (R52, R76). -/
def Link.wordBytes (l : Link) : Nat := if l.sframeF then 2 else 4

/-! ## Acceptance (R59) -/

/-- Whether a register has a field that is not read only. -/
def Reg.writable : Reg → Bool
  | .hlcfg => true
  | .hlstat => true
  | .compat => true
  | .ie _ => true
  | .nerrctl => true
  | .batch => true
  | .batchstat => true
  | .fstatus _ => true
  | .fen _ => true
  | .frx _ => true
  | .fack _ => true
  | .cmd _ _ => true
  | .mbctl _ => true
  | .mbstat _ => true
  | .pos _ _ => true
  | .cmpval _ _ => true
  | .axstat _ => true
  | .cmpctl _ => true
  | .cmpint _ => true
  | .cmpstat _ => true
  | .blstat _ => true
  | .safelat _ => true
  | .qstat _ => true
  | .fb _ k => decide (k = 3)
  | .astat => true
  | .kpstat => true
  | .gpout => true
  | _ => false

/-- Bits of `new` under the mask over the bits of `old`. -/
def masked (mask new old : Word) : Word := (new &&& mask) ||| (old &&& ~~~mask)

/-- Low word of a pair as held for a commit (R86). -/
def State.held (s : State) (page : Byte) (lo : Nat) : Word := cellGet 0 (pairKey page lo) s.link.hold

/-- High word of a pair that a write of its high word commits (R86; a half leaves the other half of the present
value). -/
def State.commitHigh (s : State) (page : Byte) (i : Nat) (data mask : Word) : Word :=
  match s.regAt page i with
  | .pos n true => masked mask data ((word64 s.axes[n].eng.ipos).extractLsb' 32 32)
  | .cmpval n true => masked mask data ((word64 s.axes[n].cmp.val).extractLsb' 32 32)
  | _ => data

/-- Whether a received write is accepted (R59, R597). -/
def State.accepts (s : State) (page : Byte) (i : Nat) (data mask : Word) : Bool :=
  let r := s.regAt page i
  r.writable && (match r with
    | .hlcfg => let v := masked mask data (s.regRead page i r)
                decide (v.extractLsb' 4 2 ≠ 3 ∧ v.extractLsb' 0 2 ≠ 3)
    | .cmpctl _ => decide ((masked mask data (s.regRead page i r)).extractLsb' 8 2 ≠ 3)
    | .pos _ true => validPos (s.held page (i - 1)) (s.commitHigh page i data mask)
    | .cmpval _ true => validPos (s.held page (i - 1)) (s.commitHigh page i data mask)
    | _ => true)

/-- A write that is not accepted (R59, R64). -/
def Link.reject (l : Link) : Link :=
  { l with rej := true, rejcnt := if l.rejcnt = 0xff then 0xff else l.rejcnt + 1, wres := 2 }

/-- A write that is accepted (R64). -/
def Link.accept (l : Link) : Link := { l with wres := if l.wres = 2 then 2 else 1 }

/-- A partial word is discarded (R71). -/
def Link.partial_ (l : Link) : Link :=
  { l with part := true, partcnt := if l.partcnt = 0xff then 0xff else l.partcnt + 1 }

/-! ## Landing (R82, R84, R86, R90, R97) -/

/-- Bits of an enable summary that hold a line (R478). -/
def ieMask (k : Nat) : Word := if k < 4 then 0x00ffffff else if k = 4 then 0x0fff3f3f else 0x000000ff

/-- A write of BATCH (R316 to R318). -/
def State.batch (mask : Word) (s : State) : State :=
  s.each ((List.range 6).filter fun b => mask.getLsbD b && s.present (Fin.ofNat 12 b)) fun b t =>
    let k : BankId := Fin.ofNat 12 b
    if t.linked k then t.modBank k fun x => { x with batches := x.batches ++ [t.opSeq] }
    else { t with bdrop := t.bdrop ||| (1#12 <<< b) }

/-- A commit of a position pair (R191). -/
def State.commitPair (n : AxisId) (cmp : Bool) (v : Int) (s : State) : State :=
  s.modAxis n fun a =>
    if cmp then { a with cmp := { a.cmp with val := v, armWrite := a.cmp.armWrite || a.cmp.arm } }
    else { a with eng := { a.eng with setPos := some v } }

/-- What the landing of a write does to its register: `d` the data, `m` the bits it carries, `v` the register's value
with them (R82, R90). -/
def State.landReg (page : Byte) (i : Nat) (d m : Word) (s : State) : State :=
  let r := s.regAt page i
  let v := masked m d (s.regRead page i r)
  let w := d &&& m
  match r with
  | .hlcfg => { s with link := { s.link with dlanes := v.extractLsb' 4 2, clanes := v.extractLsb' 0 2 } }
  | .hlstat =>
    let l := s.link
    { s with link := { l with rej := l.rej && !w.getLsbD 15, rejcnt := if w.getLsbD 15 then 0 else l.rejcnt,
                              ovrun := l.ovrun && !w.getLsbD 4, winerr := l.winerr && !w.getLsbD 3,
                              part := l.part && !w.getLsbD 2, partcnt := if w.getLsbD 2 then 0 else l.partcnt } }
  | .compat => { s with link := { s.link with sframe := v.getLsbD 0 } }
  | .ie k => { s with fn := { s.fn with ie := s.fn.ie.set k.val (v &&& ieMask k.val) } }
  | .nerrctl => if w.getLsbD 0 then { s with fn := s.fn.release } else s
  | .batch => s.batch w
  | .batchstat => { s with bdrop := s.bdrop &&& ~~~((w.extractLsb' 0 6).setWidth 12) }
  | .fstatus b =>
    let s1 := s.modBlock b (FBlock.clear w)
    match b with
    | .phase n phB => s1.forwardClear (bankOf n) (2 + 2 * (posOf n).val + (if phB then 1 else 0)) w
    | .bank c => if w = 0 then s1 else s1.forwardClear c 10 w
    | _ => s1
  | .fen b => s.modBlock b (FBlock.writeFen (b.kind.sources s.part) v)
  | .frx b =>
    s.modBlock b fun f =>
      let g : FBlock := { f with grp := if m.getLsbD 31 then d.extractLsb' 30 2 else f.grp }
      f.writeFrx (b.kind.sources s.part) (masked m d g.frx)
  | .fack b => (s.modBlock b (FBlock.ack (w.extractLsb' 0 4))).ackProofs b (w.extractLsb' 0 4)
  | .cmd x k => s.modMb x fun y => { y with cmd := y.cmd.set k.val v }
  | .mbctl x =>
    let s1 := s.modMb x fun y => { y with ien := v.getLsbD 8 }
    if w.getLsbD 0 then (s1.ring x).countBytes 2 (if s.mbx[x].busy then 0 else 64) else s1
  | .mbstat x =>
    s.modMb x fun y => { y with refused := y.refused && !w.getLsbD 3, refcnt := if w.getLsbD 3 then 0 else y.refcnt,
                                cirq := y.cirq && !w.getLsbD 2 }
  | .pos _ false => { s with link := { s.link with hold := cellSet 0 (pairKey page i) (masked m d (s.held page i)) s.link.hold } }
  | .cmpval _ false =>
    { s with link := { s.link with hold := cellSet 0 (pairKey page i) (masked m d (s.held page i)) s.link.hold } }
  | .pos n true => s.commitPair n false (pairInt (s.held page (i - 1)) (s.commitHigh page i d m))
  | .cmpval n true => s.commitPair n true (pairInt (s.held page (i - 1)) (s.commitHigh page i d m))
  | .axstat n =>
    s.modAxis n fun a =>
      let e : Engine := a.eng
      let e : Engine := { e with prej := e.prej && !w.getLsbD 11, tnone := e.tnone && !w.getLsbD 10 }
      { a with eng := { e with wrapped := e.wrapped && !w.getLsbD 9 } }
  | .cmpctl n =>
    s.modAxis n fun a =>
      let on := v.getLsbD 0
      { a with cmp := { a.cmp with dir := v.extractLsb' 8 2, arm := on, armWrite := on && (a.cmp.armWrite || m.getLsbD 0),
                                   active := a.cmp.active && on, behind := a.cmp.behind && on } }
  | .cmpint n => s.modAxis n fun a => { a with cmp := { a.cmp with int := v } }
  | .cmpstat n =>
    s.modAxis n fun a => { a with cmp := { a.cmp with skip := a.cmp.skip && !w.getLsbD 3, fired := a.cmp.fired && !w.getLsbD 1 } }
  | .blstat b =>
    let s1 := s.modBank b fun k =>
      let k : Bank := { k with lost := k.lost && !w.getLsbD 1 }
      if w.getLsbD 0 then { k with miss := false, crcup := 0, mir := { k.mir with crcdn := 0 } } else k
    if w.getLsbD 0 then s1.forwardClear b 1 0 else s1
  | .safelat b =>
    let bits := w &&& 0x1f
    if bits = 0 then s
    else
      let s1 := s.modBank b fun k => { k with mir := { k.mir with lat := k.mir.lat &&& ~~~(bits.extractLsb' 0 5) } }
      s1.forwardClear b 0 bits
  | .qstat b => s.modBank b fun k => { k with queue := k.queue.clearOvf (w.getLsbD 14) }
  | .astat => { s with auxq := s.auxq.clearOvf (w.getLsbD 14) }
  | .fb n 3 => s.modFb n fun f => { f with limev := f.limev && !w.getLsbD 27, idxev := f.idxev && !w.getLsbD 24 }
  | .kpstat => { s with keep := { s.keep with klost := s.keep.klost && !w.getLsbD 1 } }
  | .gpout =>
    let sel : BitVec 16 := w.extractLsb' 16 16
    { s with gpio := { s.gpio with out := (v.extractLsb' 0 16 &&& sel) ||| (s.gpio.out &&& ~~~sel) } }
  | _ => s

/-- The oldest posted write of a page lands (R97). -/
def State.lands (page : Byte) (s : State) : State :=
  match s.link.posted.find? fun p => p.page = page with
  | none => s
  | some p =>
    let l := s.link
    let s1 := { s with link := { l with posted := l.posted.erase p, landed := l.landed + 1 } }
    s1.landReg p.page p.index p.data p.mask

/-- Every posted write of a page lands, in the order received (R97). -/
def State.landPage (page : Byte) (s : State) : State :=
  (s.link.posted.filter fun p => p.page = page).foldl (fun t _ => t.lands page) s

/-- A word received for an index of an ordinary page: accepted and posted, or not accepted (R55, R59, R66). -/
def State.receive (index : Nat) (word : Word) (s : State) : State :=
  let s1 := s.countBytes 0 s.link.wordBytes
  let l := s1.link
  match l.place index word with
  | some (j, d, m) =>
    if s1.accepts l.page j d m then
      { s1 with link := { l.accept with posted := l.posted ++ [⟨l.page, j, d, m⟩] } }
    else { s1 with link := l.reject }
  | none => { s1 with link := l.reject }

/-- A word received for a page of a named register, with its landing behind the earlier writes of the page. -/
def State.receiveAt (p : Byte → Bool) (slot : Slot) (word : Word) (s : State) : State :=
  let s1 := s.beginWord slot.nth
  if p s1.link.page then (s1.receive (slot.index.toNat + slot.nth) word).landPage s1.link.page else s1

/-! ## Commands: writes -/

/-- A partial word: past the end of an ordinary page it sets nothing (R71, R72). -/
def State.partialWord (slot : Slot) (s : State) : State :=
  let past := !privileged s.part s.link.page && decide (0x7e < slot.index.toNat + slot.nth)
  if past then s else { s with link := s.link.partial_ }

/-- A word discarded by a privileged page (R68, R69). -/
def State.windowError (s : State) : State := { s with link := { s.link with winerr := true } }

/-- WRITE_LANDS (R97). -/
def execWriteLands (page : Byte) (s : State) : Host.Outcome State Fault Refusal := .next (s.lands page)

/-- HLCFG_WRITE (R74): page 0x00, index 0x04. -/
def execHlcfgWrite (word : Word) (s : State) : Host.Outcome State Fault Refusal :=
  .next (s.onLink (State.receiveAt (· = 0) ⟨if s.link.sframe then 0x08 else 0x04, 0⟩ word))

/-- COMPAT_WRITE (R74): page 0x00, index 0x07. -/
def execCompatWrite (word : Word) (s : State) : Host.Outcome State Fault Refusal :=
  .next (s.onLink (State.receiveAt (· = 0) ⟨if s.link.sframe then 0x0e else 0x07, 0⟩ word))

/-- Whether an index of an ordinary page holds the low or the high word of a pair. -/
def State.isPair (s : State) (high : Bool) (slot : Slot) : Bool :=
  match s.link.place (slot.index.toNat + slot.nth) 0 with
  | some (j, _, _) =>
    (match s.regAt s.link.page j with
     | .pos _ h => h == high
     | .cmpval _ h => h == high
     | _ => false)
  | none => false

/-- A word received for a slot that satisfies a condition, with its landing behind the earlier writes of the page. -/
def State.receiveSlot (p : Slot → State → Bool) (slot : Slot) (word : Word) (s : State) : State :=
  let s1 := s.beginWord slot.nth
  if p slot s1 then (s1.receive (slot.index.toNat + slot.nth) word).landPage s1.link.page else s1

/-- WIDE_LOW_WRITE (R86). -/
def execWideLowWrite (slot : Slot) (word : Word) (s : State) : Host.Outcome State Fault Refusal :=
  .next (s.onLink (State.receiveSlot (fun q t => t.isPair false q) slot word))

/-- WIDE_HIGH_WRITE (R86, R191, R597). -/
def execWideHighWrite (slot : Slot) (word : Word) (s : State) : Host.Outcome State Fault Refusal :=
  .next (s.onLink (State.receiveSlot (fun q t => t.isPair true q) slot word))

/-- MAILBOX_RING (R110, R112, R113): MBCTL of the mailbox's page. -/
def execMailboxRing (m : MbId) (word : Word) (s : State) : Host.Outcome State Fault Refusal :=
  .next (s.onLink (State.receiveAt (fun p => p.toNat = 0x10 + m.val) ⟨if s.link.sframe then 0x40 else 0x20, 0⟩ word))

/-- BATCH_WRITE (R316): page 0x01, index 0x10. -/
def execBatchWrite (word : Word) (s : State) : Host.Outcome State Fault Refusal :=
  .next (s.onLink (State.receiveAt (· = 1) ⟨if s.link.sframe then 0x20 else 0x10, 0⟩ word))

/-- NERR_RELEASE (R480): page 0x01, index 0x0E. -/
def execNerrRelease (word : Word) (s : State) : Host.Outcome State Fault Refusal :=
  .next (s.onLink (State.receiveAt (· = 1) ⟨if s.link.sframe then 0x1c else 0x0e, 0⟩ word))

/-- Whether a slot names a register that satisfies a predicate. -/
def State.slotIs (s : State) (p : Reg → Bool) (slot : Slot) : Bool :=
  match s.link.place (slot.index.toNat + slot.nth) 0 with
  | some (j, _, _) => p (s.regAt s.link.page j)
  | none => false

/-- FAULT_ACKNOWLEDGE (R470): a write of FACK. -/
def execFaultAcknowledge (slot : Slot) (word : Word) (s : State) : Host.Outcome State Fault Refusal :=
  .next (s.onLink (State.receiveSlot
    (fun q t => t.slotIs (fun r => match r with | .fack _ => true | _ => false) q) slot word))

/-- FRX_WRITE (R465). -/
def execFrxWrite (slot : Slot) (word : Word) (s : State) : Host.Outcome State Fault Refusal :=
  .next (s.onLink (State.receiveSlot
    (fun q t => t.slotIs (fun r => match r with | .frx _ => true | _ => false) q) slot word))

/-! ## Reads (R56, R64, R65, R85) -/

/-- RDY of a read of an ordinary page; `load` that the read falls in the clock in which a mirror is loaded (R65). -/
def State.rdy (s : State) (i : Nat) (load : Bool) : Bool :=
  !((decide (s.link.page ≠ 0) && !s.link.setUp)
    || (decide (s.link.page = 0) && decide (s.regAt 0 i = .hlsync) && decide (s.link.posted ≠ []))
    || (load && decide (0x40 ≤ s.link.page.toNat ∧ s.link.page.toNat ≤ 0x45)))

/-- RDY of the status byte that the present read transaction sent; 1 where it sent none (R64, R67). -/
def Link.ready (l : Link) : Bool :=
  match l.statusOut with
  | some b => b.getLsbD 7
  | none => true

/-- The status byte of a read, sent in full or not (R64, R65). -/
def State.sendStatus (i : Nat) (sent : Sent) (load : Bool) (s : State) : State :=
  if sent = .cutBefore then s
  else
    let rdy := s.rdy i load
    let s1 := { s with link := { s.link with statusOut := some (s.hlstatLow rdy s.link.wres) } }
    let s2 := if rdy then { s1 with link := { s1.link with wres := 0 } } else s1
    s2.countBytes 0 1

/-- A data word is sent in full. -/
def State.sendWord (w : Word) (s : State) : State :=
  ({ s with link := { s.link with wordsOut := s.link.wordsOut ++ [w] } }).countBytes 0 s.link.wordBytes

/-- A word of a privileged page is sent in full; S-framing carries both its halves (R76). -/
def State.sendWindow (w : Word) (s : State) : State :=
  ({ s with link := { s.link with wordsOut := s.link.wordsOut ++ [w] } }).countBytes 0 4

/-- The fabric behind an ordinary page other than 0x00 is not set up (R65, R599). -/
def State.notSetUp (s : State) : Bool :=
  decide (s.link.page ≠ 0) && !privileged s.part s.link.page && !s.link.setUp

/-- A read at index 0x7F: `PAGE` itself, then words past the end; a privileged page sends no status byte (R60, R61, R599).
DEDUCED: R65 names a read of a bank page, so a read of `PAGE` on one also has `RDY` 0 in the clock of a mirror load
(log 63). -/
def State.readPageReg (nth : Nat) (sent : Sent) (load : Bool) (s : State) : State :=
  let s1 := if nth = 0 ∧ privileged s.part s.link.page = false ∧ s.link.sframeF = false then s.sendStatus 0x7f sent load else s
  if sent ≠ .full then s1
  else if !s1.link.ready || (s1.link.sframeF && s1.notSetUp) then s1.sendWord 0
  else if nth = 0 then s1.sendWord (s1.link.page.setWidth 32)
  else
    let s2 := s1.sendWord 0
    { s2 with link := { s2.link with ovrun := true } }

/-- A native read of an ordinary page, with the shadow latch of a low word (R56, R65, R85).
DEDUCED: `RDY` is judged once, for the index that the command byte names; a burst that began below `HLSYNC` and reaches it
by auto-increment sends `LANDED` as it stands (log 63). -/
def State.readNative (slot : Slot) (sent : Sent) (load : Bool) (s : State) : State :=
  let i := slot.index.toNat + slot.nth
  let s1 := if slot.nth = 0 then s.sendStatus slot.index.toNat sent load else s
  if sent ≠ .full then s1
  else if !s1.link.ready then s1.sendWord 0
  else if 0x7e < i then
    (let s2 := s1.sendWord 0
     { s2 with link := { s2.link with ovrun := true } })
  else
    let s2 := s1.sendWord (s1.wordAt s1.link.page i)
    let latch (hi : Word) : State :=
      { s2 with link := { s2.link with shadow := cellSet 0 (pairKey s2.link.page i) hi s2.link.shadow } }
    match s1.regAt s1.link.page i with
    | .pos n false => latch ((word64 s1.axes[n].eng.ipos).extractLsb' 32 32)
    | .cmpval n false => latch ((word64 s1.axes[n].cmp.val).extractLsb' 32 32)
    | _ => s2

/-- An S-framed read of an ordinary page (R76, R77, R599): no status byte; the low half latches the high half.
DEDUCED: the pair shadow of a wide register is latched when the low half (index 2j) of its low word has been sent
(log 63). -/
def State.readHalf (slot : Slot) (sent : Sent) (s : State) : State :=
  let i := slot.index.toNat + slot.nth
  if sent ≠ .full then s
  else if s.notSetUp then s.sendWord 0
  else if 0x7e < i then
    (let s1 := s.sendWord 0
     { s1 with link := { s1.link with ovrun := true } })
  else match halfIndex i with
    | none => s.sendWord 0
    | some (j, hi) =>
      if hi then s.sendWord ((if slot.nth = 0 then (s.wordAt s.link.page j).extractLsb' 16 16 else s.link.latch).setWidth 32)
      else
        let w := s.wordAt s.link.page j
        let s1 := s.sendWord (w &&& 0xffff)
        let s2 := { s1 with link := { s1.link with latch := w.extractLsb' 16 16 } }
        let latch (v : Word) : State :=
          { s2 with link := { s2.link with shadow := cellSet 0 (pairKey s2.link.page j) v s2.link.shadow } }
        match s.regAt s.link.page j with
        | .pos n false => latch ((word64 s.axes[n].eng.ipos).extractLsb' 32 32)
        | .cmpval n false => latch ((word64 s.axes[n].cmp.val).extractLsb' 32 32)
        | _ => s2

/-- A read of an ordinary page, or of `PAGE`, in the framing in force. -/
def State.readPage (slot : Slot) (sent : Sent) (load : Bool) (s : State) : State :=
  let s1 := s.beginWord slot.nth
  if slot.index = 0x7f then s1.readPageReg slot.nth sent load
  else if privileged s1.part s1.link.page then s1
  else if s1.link.sframeF then s1.readHalf slot sent else s1.readNative slot sent load

/-- HLSYNC_READ (R65, R98, R599): page 0x00, index 0x06. -/
def execHlsyncRead (sent : Sent) (s : State) : Host.Outcome State Fault Refusal :=
  .next (s.onLink fun t =>
    if t.link.page = 0 then t.readPage ⟨if t.link.sframe then 0x0c else 0x06, 0⟩ sent false else t)

/-- WIDE_LOW_READ (R60, R65, R85): a read of an ordinary page or of `PAGE`, which latches a shadow where it reads a low
word; `load` that it falls in the clock in which the mirror of its bank page is loaded. -/
def execWideLowRead (slot : Slot) (sent : Sent) (load : Bool) (s : State) : Host.Outcome State Fault Refusal :=
  .next (s.onLink (State.readPage slot sent load))

/-- SFRAME_LOW_HALF_READ (R77). -/
def execSframeLowHalfRead (slot : Slot) (sent : Sent) (s : State) : Host.Outcome State Fault Refusal :=
  .next (s.onLink (State.readPage slot sent false))

/-- OVERRUN_READ (R66). -/
def execOverrunRead (slot : Slot) (sent : Sent) (s : State) : Host.Outcome State Fault Refusal :=
  .next (s.onLink (State.readPage slot sent false))

/-! ## Privileged pages (R67 to R70) -/

/-- PRIVILEGED_INDEX_READ (R68): an unassigned index. -/
def execPrivilegedIndexRead (index : BitVec 7) (s : State) : Host.Outcome State Fault Refusal :=
  let p := s.link.page.toNat
  let top := if 0xf0 ≤ p ∧ p ≠ 0xf7 then 1 else 0
  .next (s.onLink fun t =>
    if privileged t.part t.link.page ∧ index.toNat ≠ 0x7f ∧ top < index.toNat then
      ((t.beginWord 0).sendWindow 0).windowError else t)

/-- What a queue page names: a bank's queue or the auxiliary queue. -/
inductive QueueRef where
  | bank (b : BankId) | aux
  deriving DecidableEq, Repr

/-- The queue of a page, if it is a queue page (R68, R541). -/
def queueOf (part : Part) (page : Byte) : Option QueueRef :=
  let p := page.toNat
  if 0xf0 ≤ p ∧ p ≤ 0xf5 then some (.bank (Fin.ofNat 12 (p - 0xf0)))
  else if p = 0xf6 then some .aux
  else if part = .g24t ∧ 0xf8 ≤ p ∧ p ≤ 0xfd then some (.bank (Fin.ofNat 12 (p - 0xf8 + 6)))
  else none

/-- A queue. -/
def State.queue (s : State) : QueueRef → Queue
  | .bank b => s.banks[b].queue
  | .aux => s.auxq

/-- Changes a queue. -/
def State.modQueue (q : QueueRef) (f : Queue → Queue) (s : State) : State :=
  match q with
  | .bank b => s.modBank b fun k => { k with queue := f k.queue }
  | .aux => { s with auxq := f s.auxq }

/-- Whether a queue page returns entries: its queue is enabled and its bank is present (R69). -/
def State.queueServes (s : State) (q : QueueRef) : Bool :=
  (s.queue q).en && (match q with
    | .bank b => s.present b
    | .aux => true)

/-- The busy word (R70). -/
def busyWord : Word := 0x5aa55aa5

/-- Whether a fetch of a queue can meet the loading of an upstream packet: a bank's queue can, and an insertion into the
auxiliary queue never produces a busy word (R70, R386). -/
def QueueRef.collides : QueueRef → Bool
  | .bank _ => true
  | .aux => false

/-- A fetch of a queue page: POP removes the entry once it is sent in full (R69, R70, R71, R388). -/
def State.fetchQueue (pop : Bool) (sent : Sent) (collide : Bool) (s : State) : State :=
  match queueOf s.part s.link.page with
  | none => s
  | some q =>
    let s1 := s.beginWord 0
    if sent ≠ .full then s1
    else if !s1.queueServes q then s1.sendWindow 0
    else if collide && q.collides then s1.sendWindow busyWord
    else
      let s2 := s1.sendWindow (s1.queue q).front
      if pop then s2.modQueue q Queue.pop else s2

/-- QUEUE_POP (R388). -/
def execQueuePop (sent : Sent) (collide : Bool) (s : State) : Host.Outcome State Fault Refusal :=
  .next (s.onLink (State.fetchQueue true sent collide))

/-- QUEUE_PEEK (R388). -/
def execQueuePeek (collide : Bool) (s : State) : Host.Outcome State Fault Refusal :=
  .next (s.onLink (State.fetchQueue false .full collide))

/-- Whether the trace window is enabled (R552). -/
def State.traceOn (s : State) : Bool := decide (fieldN (s.pA 0 0x1600 0) 1 1 = 1) && decide (fieldN (s.pS 0 0x1600 0) 1 1 = 1)

/-- A POP on page 0xF7 (R70, R71, R551, R552). -/
def State.fetchTrace (sent : Sent) (collide : Bool) (s : State) : State :=
  let s1 := s.beginWord 0
  if sent ≠ .full then s1
  else if !s1.traceOn then s1.sendWindow 0
  else if collide then s1.sendWindow busyWord
  else
    let s2 := s1.sendWindow (s1.perf.fifo.headD 0)
    { s2 with perf := { s2.perf with fifo := s2.perf.fifo.tail } }

/-- TRACE_POP (R551, R552). -/
def execTracePop (sent : Sent) (collide : Bool) (s : State) : Host.Outcome State Fault Refusal :=
  .next (s.onLink fun t => if t.link.page = 0xf7 then t.fetchTrace sent collide else t)

/-- The stream bound to a window, if one is (R128). -/
def State.windowStream (s : State) (w : WinId) : Option AxisId :=
  allAxes.find? fun n => s.axes[n].str.window = some w

/-- The window of a stream page. -/
def windowOf (page : Byte) : Option WinId :=
  if 0xe0 ≤ page.toNat ∧ page.toNat ≤ 0xef then some (Fin.ofNat 16 (page.toNat - 0xe0)) else none

/-- An access to a window that is not open: WINERR, and WINCLOSED once a transaction (R69). -/
def State.closedWindow (s : State) : State :=
  let s1 := s.windowError
  ({ s1 with link := { s1.link with winRaised := true } }).raiseIf (!s.link.winRaised) .hostLink 0

/-- A point enters a stream from its window or its fetch (R203, R207). -/
def State.streamPoint (n : AxisId) (p : Point) (s : State) : State :=
  let r := s.axes[n].str.putPoint (s.followCfg n).squota p
  let s1 := s.modAxis n fun a => { a with str := r.1 }
  match r.2 with
  | .stored => s1
  | .badPoint => s1.raise (.stream n) 5
  | .refused => s1.raise (.stream n) 2

/-- A word lands in the window of a stream (R205). -/
def State.streamWord (n : AxisId) (word : Word) (s : State) : State :=
  match s.axes[n].str.half with
  | none => s.modAxis n fun a => { a with str := { a.str with half := some word } }
  | some w0 => (s.modAxis n fun a => { a with str := { a.str with half := none } }).streamPoint n (pointOf w0 word)

/-- A word written to a stream window (R69, R205, R207).
DEDUCED: the word lands in the step that receives it, so a read of `HLSYNC` never waits for one (R97, R98; log 63). -/
def State.windowWord (w : WinId) (nth : Nat) (word : Word) (s : State) : State :=
  let s1 := (s.beginWord nth).countBytes 0 4
  match s1.windowStream w with
  | some n => s1.streamWord n word
  | none => s1.closedWindow

/-- STREAM_WINDOW_WRITE (R69, R205, R207). -/
def execStreamWindowWrite (nth : Nat) (word : Word) (s : State) : Host.Outcome State Fault Refusal :=
  .next (s.onLink fun t => match windowOf t.link.page with
    | none => t
    | some w => t.windowWord w nth word)

/-- A read of index 0x00 of a stream window (R69, R71, R206): a status word sent in full clears REFD, a word cut short has
no effect. -/
def State.windowStatus (w : WinId) (nth : Nat) (sent : Sent) (s : State) : State :=
  let s1 := s.beginWord nth
  if sent ≠ .full then s1
  else
    match s1.windowStream w with
    | some n =>
      let s2 := s1.sendWindow (s1.axes[n].str.status (s1.followCfg n).squota)
      s2.modAxis n fun a => { a with str := { a.str with refd := false } }
    | none => (s1.sendWindow 0).closedWindow

/-- WINDOW_STATUS_READ (R69, R206). -/
def execWindowStatusRead (nth : Nat) (sent : Sent) (s : State) : Host.Outcome State Fault Refusal :=
  .next (s.onLink fun t => match windowOf t.link.page with
    | none => t
    | some w => t.windowStatus w nth sent)

/-- A word written at index 0x7F: the first selects the page, further ones are ignored and not accepted (R60, R61).
DEDUCED: an accepted write of `PAGE` acts at the rise of nSEL, lands nowhere else and is not counted in `LANDED` (R98;
log 63). -/
def State.pageWord (nth : Nat) (word : Word) (cut : Bool) (s : State) : State :=
  let s1 := s.beginWord nth
  if cut then (if nth = 0 then { s1 with link := s1.link.partial_ } else s1)
  else
    let s2 := s1.countBytes 0 s1.link.wordBytes
    if nth = 0 then { s2 with link := { s2.link.accept with page := word.extractLsb' 0 8 } }
    else { s2 with link := s2.link.reject }

/-- PAGE_WRITE (R60, R61). -/
def execPageWrite (nth : Nat) (word : Word) (cut : Bool) (s : State) : Host.Outcome State Fault Refusal :=
  .next (s.onLink (State.pageWord nth word cut))

/-- A write word received, or cut short, in any page (R54, R55, R59, R60, R66, R68, R71, R72, R82, R97). -/
def State.hostWord (slot : Slot) (word : Word) (cut : Bool) (s : State) : State :=
  let s1 := s.beginWord slot.nth
  if slot.index = 0x7f then s.pageWord slot.nth word cut
  else if cut then s1.partialWord slot
  else if privileged s1.part s1.link.page then
    (match windowOf s1.link.page with
     | some w => if slot.index = 0 then s.windowWord w slot.nth word else (s1.countBytes 0 4).windowError
     | none => (s1.countBytes 0 4).windowError)
  else s1.receive (slot.index.toNat + slot.nth) word

/-- HOST_WRITE (R59, R82). -/
def execHostWrite (slot : Slot) (word : Word) (cut : Bool) (s : State) : Host.Outcome State Fault Refusal :=
  .next (s.onLink (State.hostWord slot word cut))

/-! ## Link reset (R75) -/

/-- What a link reset returns to its reset values, and its fault (R75). -/
def State.linkReset (s : State) : State :=
  let l := s.link
  ({ s with link := { l with dlanes := 0, clanes := 0, dlanesF := 0, clanesF := 0, page := 0, sframe := l.cmptpin,
                             sframeF := l.cmptpin } }).raise .hostLink 1

/-- LINK_RESET (R75). -/
def execLinkReset (s : State) : Host.Outcome State Fault Refusal := .next (s.onLink State.linkReset)

end Sys2Proof.Machine
end

