-- ==== Sys2Proof/Machine/Bank.lean ====
section
/-! DEFINITION. The bank side: safe levels, entry into a state, register operations, delivery of the bank configuration
(01_node_and_banks.md R26, R33, R38, 10_pwm.md R316 to R330, 11_gate_drive_and_legs.md R355, R598). -/
namespace Sys2Proof.Machine

/-! ## Access -/

/-- Adds something that the bank has to tell the node. -/
def Bank.tell (e : BankEvent) (k : Bank) : Bank := { k with events := k.events ++ [e] }

/-- The bit of its own fault status that a bank sets with what it tells (R332). -/
def BankEvent.own (b : BankId) : BankEvent → Word
  | .fault (.bank c) bit => if c = b then 1#32 <<< bit else 0
  | _ => 0

/-- A bank tells the node something; a fault of the bank block sets its bit in the bank's own status (R332). -/
def State.bankTell (b : BankId) (e : BankEvent) (s : State) : State :=
  s.modBank b fun k => { k.tell e with flt := k.flt ||| e.own b }

/-- The bank has its supply (R26). -/
def Bank.powered (k : Bank) : Bool := decide (k.st ≠ .unpowered)

/-- Periods run and converters sample (R305, R371). -/
def Bank.clocked (k : Bank) : Bool := decide (k.st ≠ .unpowered) && decide (k.st ≠ .linking)

/-- Whether a key belongs to a bank: parameters of the bank, of its axes and of their phases (R141). -/
def keyOfBank (b : BankId) (key : Nat) : Bool :=
  let i := keyIdent key
  let u := keyUnit key
  if i / 4096 = 2 then decide (u = b.val)
  else if 0x6000 ≤ i ∧ i < 0x6200 then decide (u = b.val)
  else if i / 4096 = 3 then decide (u / 4 = b.val)
  else if i / 4096 = 4 then decide (u / 8 = b.val)
  else false

/-- Whether the bank holds a copy of a parameter: bank-held parameters, and QSDEC (R533). -/
def copiedToBank (ident : Nat) : Bool :=
  ident == 0x3004 || (match findParam ident with
    | some d => d.bankHeld
    | none => false)

/-! ## Safe levels (R324 to R328) -/

/-- Causes that persist, in the order of SAFELAT; nFLTn of a carried bank is not observed (R324, R541). -/
def State.safeCauses (s : State) (b : BankId) : BitVec 5 :=
  let live := s.powered
  BitVec.ofBool s.banks[b].safe.clkGone ++ BitVec.ofBool (live && s.debugHalted) ++ 0#1
    ++ BitVec.ofBool (live && decide (b.val < 6) && s.nfltLow.getLsbD b.val) ++ BitVec.ofBool (live && s.nstopLow)

/-- `SAFELVL` as the bank holds it; a bank in LINKING uses BRAKE (R331). -/
def State.safeLevel (s : State) (b : BankId) : Bool :=
  decide (s.banks[b].st ≠ .linking) && decide (fieldN (s.bA b.val 0x2400 0) 0 1 = 1)

/-- Legs of an axis under a forced level, `low` that it is BRAKE: a release in progress goes on, every other leg takes the
level (R346, R352). -/
def Axis.force (low : Bool) (a : Axis) : Axis :=
  { a with loopA := { a.loopA with integ := 0 }, loopB := { a.loopB with integ := 0 },
           legs := { a.legs with energised := false,
                                 cut := if low && decide (a.legs.rel = .none) && !a.legs.latch then Vector.replicate 4 (0, 1)
                                   else a.legs.cut } }

/-- The level of a bank that is forced with a latch bit set: BRAKE where `HALT` or `CLK` is set (R325). -/
def SafeBank.level (lvl : Bool) (k : SafeBank) : SafeBank :=
  if k.lat = 0 then k else { k with coast := lvl && !k.lat.getLsbD 3 && !k.lat.getLsbD 4 }

/-- The forced level follows the latch bits; without latch bits it stays (R325, R328). Where it becomes BRAKE the low sides
turn on. -/
def State.relevel (b : BankId) (s : State) : State :=
  let lvl := s.safeLevel b
  let k := s.banks[b].safe
  let s1 := s.modBank b fun k => { k with safe := k.safe.level lvl }
  if k.forced ∧ k.coast ∧ (k.level lvl).coast = false then
    s1.each allPos fun p t => t.modAxis (axisAt b p) (Axis.force true)
  else s1

/-- Latches causes and forces the bank's level; RUN and SERVICE become SAFE, ORPHAN stays (R326). -/
def State.forceSafe (b : BankId) (bits : BitVec 5) (s : State) : State :=
  if s.banks[b].powered then
    let s1 := s.modBank b fun k =>
      { k with safe := { k.safe with lat := k.safe.lat ||| bits, forced := true },
               st := if k.st = .run ∨ k.st = .service then .safe else k.st, svc := 0, releaseDue := false, cal := false }
    let s2 := s1.relevel b
    s2.each allPos fun p t => t.modAxis (axisAt b p) (Axis.force (!s2.banks[b].safe.coast))
  else s

/-- nSTOP, nFLTn and a debug halt: the bank is forced and its node-side fault is raised; the engines treat the bank as
having left RUN. A bank that is UNPOWERED raises nothing then; the node remembers the cause (R330). -/
def State.inputSafe (b : BankId) (bits : BitVec 5) (fault : Nat) (s : State) : State :=
  if s.present b ∧ s.banks[b].powered then
    let s1 := (s.forceSafe b bits).modBank b fun k =>
      { k with left := k.left || decide (k.view = .run ∨ k.view = .service) }
    s1.raise (.bank b) fault
  else if s.present b then s.modBank b fun k => { k with missed := k.missed ||| bits }
  else s

/-- The safe-state channel of a bank becomes active: causes that stand act as at their beginning (R324, R327, R330). -/
def State.channelOn (b : BankId) (s : State) : State :=
  let c := s.safeCauses b
  let one (bit fault : Nat) (t : State) : State := if c.getLsbD bit then t.inputSafe b (1#5 <<< bit) fault else t
  one 3 2 (one 1 3 (one 0 4 s))

/-- A cause has gone: no bank that met it UNPOWERED owes its fault any more (R330). -/
def State.causeGone (bits : BitVec 5) (s : State) : State :=
  s.each allBanks fun b t => t.modBank b fun k => { k with missed := k.missed &&& ~~~bits }

/-- Clears latch bits whose cause does not persist (R328). -/
def State.clearLatch (b : BankId) (bits : BitVec 5) (s : State) : State :=
  let keep := s.safeCauses b
  (s.modBank b fun k => { k with safe := { k.safe with lat := k.safe.lat &&& ~~~(bits &&& ~~~keep) } }).relevel b

/-- Faults raised in a bank that enters RUN while a cause of R330 persists that it met UNPOWERED: STOPIN, FLTIN,
HALTSAFE; the level is forced at once (R330, R326). -/
def State.lateCauses (b : BankId) (s : State) : State :=
  let c := s.safeCauses b &&& s.banks[b].missed
  let s0 := s.modBank b fun k => { k with missed := 0 }
  let one (bit fault : Nat) (t : State) : State := if c.getLsbD bit then t.inputSafe b (1#5 <<< bit) fault else t
  let s1 := one 3 2 (one 1 3 (one 0 4 s0))
  if s1.banks[b].safe.lat ≠ 0 ∧ s1.banks[b].st = .run then s1.forceSafe b 0 else s1

/-! ## Entering RUN (R305, R315, R329, R380) -/

/-- TEST becomes CURRENT in a DRVMODE word (R315). -/
def leaveTest (w : Word) : Word :=
  BitVec.ofNat 32 ((List.range 4).foldl (fun a i => let m := fieldN w.toNat (2 * i) 2
    a + (if m = 2 then 0 else m) * 4 ^ i) 0)

/-- DRVMODE leaves TEST, applied and staged, in the bank and in the node's copy (R315). -/
def Params.leaveTest (b : BankId) (p : Params) : Params :=
  let k := keyOf b.val 0x2001 0
  { applied := paramSet k (Machine.leaveTest (paramGet p.applied k)) p.applied,
    staged := paramSet k (Machine.leaveTest (paramGet p.staged k)) p.staged }

/-- The values of the PERIOD boundary as applied in the bank (R316). -/
def State.pwmUse (s : State) (b : BankId) : PwmUse where
  period := s.bA b.val 0x2000 0
  drv := s.wB b.val 0x2001 0
  filt := Vector.ofFn fun i : Fin 16 => s.wB b.val 0x2002 i.val
  duty := Vector.ofFn fun i : Fin 16 => s.wB b.val 0x2003 i.val

/-- A setpoint of an axis that is OFF: its enable is 0 (R28, R178). -/
def Setpoint.off (x : Setpoint) : Setpoint := { x with cur := x.cur &&& ~~~(1#32) }

/-- A bank enters RUN: period and sequence numbers start again, TEST ends, nothing stays forced, and every axis is OFF
until a packet enables it (R305, R315, R329, R380). -/
def State.bankRun (b : BankId) (s : State) : State :=
  let s1 := { s with bankP := s.bankP.leaveTest b, nodeP := s.nodeP.leaveTest b }
  let use := s1.pwmUse b
  let s2 := s1.modBank b fun k =>
    { k with st := .run, releaseDue := false, seq := 0, svc := 0, cal := false,
             safe := { k.safe with forced := false }, sp := k.sp.map Setpoint.off,
             pwm := { k.pwm with use := use, changes := [], started := false, number := 0 } }
  s2.each allPos fun p t => t.modAxis (axisAt b p) fun a =>
    { a with legs := { a.legs with waiting := a.legs.waiting || a.legs.rpend }, obs := { a.obs with learnOk := false } }

/-! ## Delivery of the configuration (R26, R319, R363, R598, R232) -/

/-- A bank takes coefficients, and tells the node of one that newly reaches `HLMAX` (R231, R266). -/
def State.takeHarm (b : BankId) (p : Pos) (h : Vector (BitVec 16) 4) (s : State) : State :=
  let n := axisAt b p
  let r := s.axes[n].obs.setHarm (fieldN (s.bA n.val 0x3414 0) 16 16) h
  let s1 := s.modAxis n fun a => { a with obs := r.1 }
  if r.2 then s1.bankTell b (.fault (.axis n) 13) else s1

/-- The bank takes every bank-held value as the node holds it, the coefficients and the broken sensors (R26, R232, R319,
R449). -/
def State.deliver (b : BankId) (s : State) : State :=
  let mine (c : Nat × Word) : Bool := keyOfBank b c.1 && copiedToBank (keyIdent c.1)
  let take (own node : List (Nat × Word)) : List (Nat × Word) :=
    mergeCells (own.filter fun c => !keyOfBank b c.1) (node.filter mine)
  let s1 := { s with bankP := ⟨take s.bankP.applied s.nodeP.applied, take s.bankP.staged s.nodeP.staged⟩ }
  let s2 := s1.modBank b fun k => { k with kiln := { k.kiln with broken := s.kiln.broken[b], subx := s.kiln.subx[b] } }
  s2.each allPos fun p t => t.takeHarm b p t.axes[axisAt b p].cur.harm

/-- One spare of a spare map (R366): DISABLED is an idle spare. -/
def spareOf (w : Word) (second : Bool) : Spare where
  st := match fieldN w.toNat (if second then 14 else 6) 2 with
    | 1 => .inuse
    | 2 => .failed
    | _ => .idle
  swp := false
  leg := Fin.ofNat 16 (fieldN w.toNat (if second then 8 else 0) 4)

/-- A latched axis as the node's copy holds it (R598). No word counts as failed afterwards: DESIGN CHOICE (log 79), the delivery of
R26 rewrites every word (R99). -/
def LegsBank.restore (flt : Word) (arm : Byte) : LegsBank where
  flt := #v[flt.extractLsb' 0 8, flt.extractLsb' 8 8, flt.extractLsb' 16 8, flt.extractLsb' 24 8]
  tries := arm.extractLsb' 5 3
  latch := arm.getLsbD 4
  rpend := arm.getLsbD 3

/-- A bank whose supply was away takes the spare map, the leg faults and the offsets that the node holds (R363, R598,
R513). -/
def State.deliverCopies (b : BankId) (s : State) : State :=
  let m := s.banks[b].mir
  let s1 := s.modBank b fun k =>
    { k with spares := #v[spareOf m.spare false, spareOf m.spare true], retired := m.spare.extractLsb' 16 16 }
  s1.each allPos fun p t => t.modAxis (axisAt b p) fun a =>
    { a with legs := LegsBank.restore m.legflt[p] (m.arm.extractLsb' (8 * p.val) 8) }

/-! ## The time base and BATCH (R316, R320, R322) -/

/-- First period start of a bank at or after the next tick edge at period p, in clocks from the present edge (R41). -/
def State.gridStart (s : State) (b : BankId) (p : Nat) : Int :=
  (24000 * s.units + bankOffset s.part.nBanks (b.val % 6) p : Nat)

/-- Start of the first period that follows the period running and every change under way. -/
def PwmBase.next (grid : Nat → Int) (w : PwmBase) : Int :=
  match w.changes.getLast? with
  | none => w.pstart + w.len
  | some c => grid c.use.period

/-- An apply flag acts: every staged PERIOD value of the bank is applied, and is used from the new grid on (R95, R316,
R320). The node's copies follow. -/
def State.batchApply (b : BankId) (s : State) : State :=
  let period (key : Nat) : Bool := keyOfBank b key && decide (keyAcc key = .period)
  let s1 := { s with bankP := s.bankP.applyWhere period }
  let app := mergeCells (s1.nodeP.applied.filter fun c => !period c.1) (s1.bankP.applied.filter fun c => period c.1)
  let s2 := { s1 with nodeP := { s1.nodeP with applied := app } }
  let use := s2.pwmUse b
  let w := s2.banks[b].pwm
  let old := match w.changes.getLast? with
    | none => w.use.period
    | some c => c.use.period
  let c := periodChange old (w.next fun p => s2.gridStart b p - 24000 * s2.units) (s2.gridStart b use.period) use
  let w1 : PwmBase := if w.started then { w with changes := w.changes ++ [c], clampArm := true }
    else { w with use := use, clampArm := true }
  s2.modBank b fun k => { k with pwm := w1 }

/-! ## Register operations (R33) -/

/-- Register-operation slots of an operation (R28, R267). -/
def RegOp.slots : RegOp → Nat
  | .write _ vals => vals.length
  | .read _ n _ => n
  | .live _ _ _ n => n
  | .table _ => 128
  | .harm _ _ => 2
  | .proof => 5
  | _ => 1

/-- Whether an operation returns words. -/
def RegOp.returns : RegOp → Bool
  | .read _ _ _ => true
  | .live _ _ _ _ => true
  | .proof => true
  | _ => false

/-- Whether an operation writes a PERIOD value (R95). -/
def RegOp.isPeriod : RegOp → Bool
  | .write key _ => decide (keyAcc key = .period)
  | _ => false

/-- The live words that a bank holds (R263, R296, R461, R257): KTEMPS, HARM, STLATCH, and the captured current values.
-/
def State.bankLive (s : State) (ident unit : Nat) : List Word :=
  let n : AxisId := Fin.ofNat 48 unit
  if ident = 0x2f30 then s.banks[(Fin.ofNat 12 unit : BankId)].kiln.ktemps
  else if ident = 0x3f40 then harmWords s.axes[n].obs.harm
  else if ident = 0x3f51 then [s.axes[n].obs.latchAngle, BitVec.ofInt 32 (max (-2147483648) (min 2147483647 s.axes[n].obs.latchLam))]
  else s.banks[bankOf n].capT[posOf n].toList

/-- Computed Proof of a bank and of the bank halves of its axes (R100, R102). -/
def State.bankProofWords (s : State) (b : BankId) : List Word :=
  s.proofValue (.bank b) :: allPos.map fun p => s.proofValue (.axisB (axisAt b p))

/-- A phase word that is written again no longer fails parity (R99). -/
def State.rewritten (key : Nat) (n : Nat) (s : State) : State :=
  if keyIdent key / 4096 = 4 then
    s.modAxis (Fin.ofNat 48 (keyUnit key / 2)) fun a =>
      { a with legs := { a.legs with badWords := a.legs.badWords.filter fun k => decide (k < key ∨ key + n ≤ k) } }
  else s

/-- A write executes: a PERIOD value is staged, every other applies (R92, R94). Where `HLEN` is 0 in a tick, no coefficient is
learned at its end (R230). -/
def State.bankWrite (b : BankId) (key : Nat) (vals : List Word) (s : State) : State :=
  let period := decide (keyAcc key = .period)
  let p := (vals.zipIdx).foldl (fun q c => if period then q.stage (key + c.2) c.1 else q.put (key + c.2) c.1) s.bankP
  let s1 := { s with bankP := p }
  let s2 := ((s1.openProofs ((proofsOf (keyIdent key) (keyUnit key)).filter ProofId.inBank)).rewritten key vals.length).relevel b
  if keyIdent key = 0x3414 then s2.each allPos fun p t => t.modAxis (axisAt b p) fun a =>
      { a with obs := { a.obs with learnOk := a.obs.learnOk && decide (fieldN (s2.bA (axisAt b p).val 0x3414 0) 0 1 = 1) } }
  else s2

/-- Terminals of a bank position that a spare serves (R337). -/
def Bank.servedLegs (k : Bank) (p : Pos) : BitVec 4 :=
  BitVec.ofNat 4 ((List.range 4).foldl (fun a i =>
    a + if (servedBy k.spares (Fin.ofNat 16 (4 * p.val + i))).isSome then 2 ^ i else 0) 0)

/-- The fault that a refused re-arm raises again: the one that latched the axis (R355). A bank that lost its supply has taken
the bytes of `LEGFLT` back (R598), but not that fault: it is then what persists, or what the bytes show (log 74). -/
def State.rearmFault (s : State) (b : BankId) (n : AxisId) : BlockId × Nat :=
  let l := s.axes[n].legs
  let k := s.banks[b]
  l.cause.getD <|
  if k.busHi then (.bank b, 10) else if k.railLo then (.bank b, 9)
  else if l.badWords ≠ [] then (.phase n (l.badWords.any fun w => decide (keyUnit w % 2 = 1)), 3)
  else if l.flt.toList.any fun x => x.getLsbD 0 || x.getLsbD 1 then (.axis n, 30)
  else if l.flt.toList.any fun x => x.getLsbD 2 || x.getLsbD 3 then (.axis n, 29)
  else if l.flt.toList.any fun x => x.getLsbD 6 then (.axis n, 27)
  else (.axis n, 28)

/-- A re-arm executes (R355, R357): refused while step 2 has not been reached or a cause persists; the bank then raises
its fault again. -/
def State.bankRearm (b : BankId) (p : Pos) (host : Bool) (s : State) : State :=
  let n := axisAt b p
  let l := s.axes[n].legs
  let k := s.banks[b]
  if !l.latch then
    (if host then s.modAxis n fun a => { a with legs := { a.legs with tries := 0 } } else s)
  else if !l.step2 || l.persists k.busHi k.railLo (k.servedLegs p) then
    let f := s.rearmFault b n
    let r := l.refused host s.part.retries (fieldN (s.bA b.val 0x2101 0) 0 3)
    let s1 := ((s.modAxis n fun a => { a with legs := r.1 }).bankTell b (.fault f.1 f.2)).bankTell b (.axisOff p)
    if r.2 then s1.bankTell b (.fault (.axis n) 26) else s1
  else s.modAxis n fun a => { a with legs := a.legs.rearmed host }

/-- Whether both phases of an axis measure below 0.2 A (R349, R359). -/
def Axis.calm (a : Axis) : Bool := decide (a.loopA.imeas.natAbs < 200 ∧ a.loopB.imeas.natAbs < 200)

/-- A swap or a return starts, unless a phase of its axis carries 0.2 A or more (R359, R360, R364): 5.4 µs into the tick, as its
packet executes (R32). -/
def State.bankSwap (b : BankId) (leg : LegId) (sel : BitVec 2) (ret : Bool) (tag : Nat) (s : State) : State :=
  let k := s.banks[b]
  let n := axisAt b ⟨leg.val / 4, by omega⟩
  let byte := s.axes[n].legs.flt[leg.val % 4]
  let pick := if ret then servedBy k.spares leg else chooseSpare (s.wB b.val 0x2300 0) k.spares sel
  match pick with
  | some second =>
    if s.axes[n].calm ∧ k.swap = none then
      s.modBank b fun x => { x with swap := some ⟨leg, second, ret, byte, 2592⟩,
                                    spares := x.spares.mapFinIdx fun i sp _ =>
                                      if (i = 1) = second then { sp with swp := true } else sp }
    else s.bankTell b (.opRefused tag)
  | none => s.bankTell b (.opRefused tag)

/-- KILN_RESTORE in the bank: a sensor re-admitted is judged afresh (R463). -/
def KilnBank.restore (mask : BitVec 9) (k : KilnBank) : KilnBank :=
  { k with broken := k.broken &&& ~~~(mask.extractLsb' 0 8), subx := k.subx && !mask.getLsbD 8,
           beyond := k.beyond.mapFinIdx fun i x _ => x && !mask.getLsbD i,
           overT := k.overT.mapFinIdx fun i x _ => if mask.getLsbD i then 0 else x }

/-- The bank's part of a block reset (R155, R311, R363, R366). -/
def State.bankReset (b : BankId) (s : State) : State :=
  let period (key : Nat) : Bool := keyOfBank b key && decide (keyIdent key / 4096 = 2)
  let s1 := { s with bankP := s.bankP.discardWhere period }
  let s2 := s1.modBank b fun k =>
    { k with crcdn := 0, flt := 0, pwm := { k.pwm with pulseadj := 0 },
             spares := k.spares.map fun sp => if sp.st = .failed then { sp with st := .idle } else sp }
  s2.each allPos fun p t => t.modAxis (axisAt b p) fun a => { a with legs := { a.legs with flt := Vector.replicate 4 0 } }

/-- The bank's part of an axis's block reset (R155, R366). -/
def Axis.bankReset (a : Axis) : Axis :=
  { a with legs := { a.legs with flt := Vector.replicate 4 0, tries := 0 },
           obs := { a.obs.clearEvents with scount := 0 } }

/-- One register operation executes in the bank (R33); the words it returns travel under its tag. -/
def State.bankOp (b : BankId) (e : OpEntry) (s : State) : State :=
  let reply (ws : List Word) : State := s.modBank b fun k => { k with returns := k.returns ++ [⟨e.tag, ws⟩] }
  match e.op with
  | .write key vals => s.bankWrite b key vals
  | .read key n active =>
    reply ((List.range n).map fun i => paramGet (if active then s.bankP.applied else s.bankP.staged) (key + i))
  | .proof => reply (s.bankProofWords b)
  | .live ident unit w0 n => reply (((s.bankLive ident unit).drop w0).take n)
  | .clear reg mask =>
    if reg = 0 then s.clearLatch b (mask.extractLsb' 0 5)
    else if reg = 1 then s.modBank b fun k => { k with crcdn := 0 }
    else if reg = 10 then s.modBank b fun k => { k with flt := k.flt &&& ~~~mask }
    else
      let j := reg - 2
      s.modAxis (axisAt b (Fin.ofNat 4 (j / 2))) fun a =>
        let clr (l : PhaseLoop) : PhaseLoop := { l with flt := l.flt &&& ~~~(mask.extractLsb' 0 4) }
        if j % 2 = 0 then { a with loopA := clr a.loopA } else { a with loopB := clr a.loopB }
  | .rearm p host => s.bankRearm b p host
  | .tries p => s.modAxis (axisAt b p) fun a => { a with legs := { a.legs with tries := 0 } }
  | .dropRetry p => s.modAxis (axisAt b p) fun a => { a with legs := { a.legs with rpend := false } }
  | .harm p h => s.takeHarm b p h
  | .table p => s.modBank b fun k => { k with tableNew := k.tableNew ||| (1#4 <<< p.val) }
  | .safeRelease =>
    if s.banks[b].safe.lat ≠ 0 ∨ s.banks[b].st ≠ .safe then s.bankTell b (.opRefused e.tag)
    else s.modBank b fun k => { k with releaseDue := true }
  | .swap leg sel ret => s.bankSwap b leg sel ret e.tag
  | .cal => s.modBank b fun k => { k with cal := true }
  | .kiln mask => s.modBank b fun k => { k with kiln := k.kiln.restore mask }
  | .resetBank => s.bankReset b
  | .resetAxis p => s.modAxis (axisAt b p) Axis.bankReset
  | .resetPhase p phB =>
    s.modAxis (axisAt b p) fun a =>
      if phB then { a with loopB := { a.loopB with flt := 0 } } else { a with loopA := { a.loopA with flt := 0 } }

end Sys2Proof.Machine
end

