-- ==== Sys2Proof/Machine/ProofScan.lean ====
section
/-! DEFINITION. The Proof scan, the comparison of sealed Proofs and the end of a COMMIT (03_register_behaviour.md R100 to
R106, 05_command_set.md R150). -/
namespace Sys2Proof.Machine

/-- The block that raises a Proof's mismatch, and its status bit (R104). -/
def ProofId.owner : ProofId → BlockId × Nat
  | .node => (.node, 1)
  | .bank b => (.bank b, 31)
  | .axisN n => (.axis n, 31)
  | .axisB n => (.axis n, 31)

/-- The Proof that counts the scans of a Proof that differed: one count for the two halves of an axis (R105). -/
def ProofId.counter : ProofId → ProofId
  | .axisB n => .axisN n
  | p => p

/-- A scan that differed is counted, once for the two halves of an axis (R105). -/
def State.countMiss (s : State) (p : ProofId) : State :=
  let counted := match p with
    | .axisB n => s.proofs.axisN[n].mis
    | _ => false
  if counted then s
  else s.modProof p.counter fun q => { q with miscnt := if q.miscnt = 0xff then 0xff else q.miscnt + 1 }

/-- PROOF is raised for a Proof, which remembers the class of the raise (R104, R469). -/
def State.raiseProof (p : ProofId) (s : State) : State :=
  let r := s.raiseT p.owner.1 p.owner.2 false
  r.1.modProof p fun q => { q with told := some (BitVec.ofNat 3 r.2) }

/-- A computed value: stored, and compared where the Proof is sealed; PROOF is raised once per mismatch, and again at a
scan that still differs after the class of that raise has been acknowledged (R102, R104). -/
def State.takeProof (p : ProofId) (v : Word) (s : State) : State :=
  let old := s.proofs.get p
  let bad := decide (old.state ≠ .open_ ∧ v ≠ old.ref)
  let s1 := s.modProof p fun q => { q with computed := v, mis := bad }
  if bad then
    let s2 := s1.countMiss p
    if old.mis && old.told.isSome then s2 else s2.raiseProof p
  else s1

/-- The Proofs that a COMMIT names (R150). -/
def CommitRun.proofs (c : CommitRun) : List ProofId :=
  (if c.node then [ProofId.node] else []) ++ c.banks.map .bank ++ c.axes.flatMap fun n => [.axisN n, .axisB n]

/-- The banks whose results a COMMIT needs. -/
def CommitRun.needs (c : CommitRun) : List BankId := (c.banks ++ c.axes.map bankOf).eraseDups

/-- Whether a covered value of a Proof is staged and not applied (R103). -/
def State.pendingProof (s : State) (p : ProofId) : Bool :=
  (if p.inBank then s.bankP else s.nodeP).pendingWhere fun key => p ∈ proofsOf (keyIdent key) (keyUnit key)

/-- A COMMIT fails: the Proofs it names are OPEN (R103, R150). DEDUCED: also where NOLINK comes while it waits (log 66). -/
def State.commitFail (c : CommitRun) (e : ECode) (s : State) : State :=
  let s1 := { s with commits := s.commits.filter fun (d : CommitRun) => d.mb ≠ c.mb }
  (s1.each c.proofs fun p t => t.modProof p Proof.opened).err c.mb e 0

/-- Response of a COMMIT: the target's own references (R150). -/
def State.commitWords (s : State) (m : MbId) : List Word :=
  match s.target? m with
  | some (.bank b) => [s.proofs.bank[b].ref]
  | some (.axis n) => [s.proofs.axisN[n].ref, s.proofs.axisB[n].ref]
  | _ => [s.proofs.node.ref]

/-- A COMMIT ends: CHANGED, or the Proofs are sealed with the values computed (R103). -/
def State.commitEnd (c : CommitRun) (s : State) : State :=
  if c.changed then s.commitFail c .changed
  else
    let s1 := { s with commits := s.commits.filter fun (d : CommitRun) => d.mb ≠ c.mb }
    let s2 := s1.each c.proofs fun p t =>
      t.modProof p fun q => { q with state := .sealed, ref := q.computed, mis := false, miscnt := 0, told := none }
    s2.done c.mb (s2.commitWords c.mb)

/-- A COMMIT whose scan starts (R103). -/
def State.commitStart (c : CommitRun) (s : State) : State :=
  if c.proofs.any s.pendingProof then s.commitFail c .pending
  else
    let c1 := { c with started := true, await := c.needs }
    let s1 := { s with commits := s.commits.map fun (d : CommitRun) => if d.mb = c.mb then c1 else d }
    if c1.await = [] then s1.commitEnd c1 else s1

/-- The results of a bank reach the node (R102, R103). -/
def State.bankProofs (b : BankId) (v : Vector Word 5) (s : State) : State :=
  let s1 := (s.takeProof (.bank b) v[0]).each allPos fun p t => t.takeProof (.axisB (axisAt b p)) (v.toList.getD (p.val + 1) 0)
  let run := s1.commits.filter fun c => c.started && c.await.contains b
  let s2 := { s1 with commits := s1.commits.map fun (c : CommitRun) => { c with await := c.await.filter fun x => x ≠ b } }
  s2.each run fun c t =>
    match t.commits.find? fun (d : CommitRun) => d.mb = c.mb with
    | some d => if d.await = [] then t.commitEnd d else t
    | none => t

/-- A register upset: the applied value of a covered word changes where it is held. -/
def State.upset (r : Record) (s : State) : State :=
  if copiedToBank (keyIdent r.key) && decide (keyIdent r.key ≠ 0x3004) then
    { s with bankP := { s.bankP with applied := paramSet r.key r.value s.bankP.applied } }
  else { s with nodeP := { s.nodeP with applied := paramSet r.key r.value s.nodeP.applied } }

/-- The node's part of a scan (R102 to R104). -/
def State.proofScan (s : State) : State :=
  let ids := ProofId.node :: s.presentAxes.map ProofId.axisN
  let s1 := s.each ids fun p t => t.takeProof p (t.proofValue p)
  (s1.each (s1.commits.filter fun c => !c.started) State.commitStart).settle

/-- PROOF_SCAN (R102): at a tick whose number is a multiple of 20; `upsets` are words that have changed by themselves.
-/
def execProofScan (upsets : List Record) (s : State) : Host.Outcome State Fault Refusal :=
  .next (if s.tick % 20 = 0 then (s.each upsets State.upset).proofScan else s)

end Sys2Proof.Machine
end

