-- ==== Sys2Proof/Machine/BankLink.lean ====
section
/-! DEFINITION. The bank link: what a bank does with a downstream packet and at its tick edge, what the node does with an
upstream packet, and how a bank moves between its states (01_node_and_banks.md R28 to R38, R42, 10_pwm.md R324 to R330,
18_store_update_service.md R530, R533). -/
namespace Sys2Proof.Machine

/-! ## The words of a packet (R28, R29)

The commands below act on what a packet carries; `crcOk` of DOWNSTREAM_PACKET_RECEIVE and UPSTREAM_PACKET_CHECK says
whether its words arrived with `goodFrame`. -/

/-- CRC-32 over words, each least significant byte first (R28, R29; log 67). -/
def crcWords (l : List Word) : Word := crc32 (l.flatMap fun w => bytesOf 4 w.toNat)

/-- A packet with its CRC word. -/
def frame (l : List Word) : List Word := l ++ [crcWords l]

/-- A packet whose last word is the CRC of the words before it. -/
def goodFrame (l : List Word) : Bool := decide (l.getLast? = some (crcWords l.dropLast))

/-- Header of a packet: type, bank number, acknowledge, tick number (R28, R29). -/
def linkHeader (kind : BitVec 4) (b : BankId) (ack : Byte) (tick : Half) : Word :=
  kind ++ BitVec.ofNat 4 (b.val % 6) ++ ack ++ tick

/-- Kind of an operation, the address of its first slot, and its write data (R28; log 67). -/
def RegOp.onLink : RegOp → Nat × Nat × List Word
  | .write key vals => (0, key, vals)
  | .read key _ active => (if active then 2 else 1, key, [])
  | .live ident unit w0 _ => (3, keyOf unit ident w0, [])
  | .clear reg mask => (4, reg, [mask])
  | .rearm p host => (5, p.val, [if host then 1 else 0])
  | .tries p => (6, p.val, [])
  | .dropRetry p => (7, p.val, [])
  | .harm p h => (8, p.val, harmWords h)
  | .table p => (9, p.val, [])
  | .safeRelease => (10, 0, [])
  | .swap leg sel ret => (11, leg.val, [0#29 ++ BitVec.ofBool ret ++ sel])
  | .cal => (12, 0, [])
  | .kiln mask => (13, 0, [0#23 ++ mask])
  | .proof => (14, 0, [])
  | .resetBank => (15, 0, [])
  | .resetAxis p => (16, p.val, [])
  | .resetPhase p phB => (17, 2 * p.val + (if phB then 1 else 0), [])

/-- The slots of an operation in a packet, two words each: address and operation, then write data (R28). -/
def OpEntry.slotWords (tick : Nat) (e : OpEntry) : List Word :=
  let q := e.op.onLink
  let n := ((e.parts.filter fun p => decide (p.1 = tick)).map fun p => p.2).sum
  (List.range n).flatMap fun i => [Config.slotWord q.1 (q.2.1 + i), q.2.2.getD i 0]

/-- The 47 words of D(k) (R28); `tick` the tick number of its edge. -/
def DPacket.words (b : BankId) (tick : Nat) (d : DPacket) : List Word :=
  let slots := (d.ops.flatMap (OpEntry.slotWords tick)).take 32
  frame (linkHeader 1 b d.ack d.tick :: d.sp.toList.flatMap (fun x => [x.angle, x.cur, x.vff])
    ++ [Config.controlWord d.batch d.svc d.safe d.resume d.inj] ++ slots ++ List.replicate (32 - slots.length) 0)

/-- The words of U(k) (R29): status, faults, PULSEADJ and the thermal summary; observer records; read returns; converter
entries. -/
def UPacket.words (b : BankId) (u : UPacket) : List Word :=
  let r := u.regs
  let back := (u.returns.flatMap fun x => x.words).take 16
  let blstat : Word := r.crcdn ++ 0#12 ++ r.st.code ++ 0#4 ++ BitVec.ofBool r.holdover ++ BitVec.ofBool r.lock ++ 0#2
  frame (linkHeader 2 b u.ack u.tick :: [Config.statusWord blstat r.pwmstat r.safelat, r.flt, r.pulseadj, u.ksum]
    ++ u.obs.toList.flatMap (fun x => [x.1, x.2.1, x.2.2]) ++ back ++ List.replicate (16 - back.length) 0 ++ u.entries)

/-- The latest tick number, not above `now`, that a packet gives modulo m (R28, R29). -/
def tickBack (now m x : Nat) : Nat := now - (now + m - x % m) % m

/-! ## DOWNSTREAM_PACKET_RECEIVE (R35, R36) -/

/-- A bank discards a downstream packet (R35 to R37): it counts, and the second in a row is reported apart. -/
def State.discardDown (b : BankId) (s : State) : State :=
  let s1 := s.modBank b fun k =>
    { k with crcdn := if k.crcdn = 0xff then 0xff else k.crcdn + 1, badDn := k.badDn + 1, hold := true }
  let s2 := s1.bankTell b (.fault (.bank b) 12)
  if s2.banks[b].badDn = 2 then s2.bankTell b (.fault (.bank b) 13) else s2

/-- A service request executes: 3 leaves SERVICE at the next period start (R154, R530). -/
def Bank.takeService (svc : BitVec 2) (k : Bank) : Bank :=
  if svc = 3 then (if k.st = .service then { k with releaseDue := true, svc := 0 } else k)
  else if svc = 0 then k
  else if k.st = .run then { k with svc := svc } else k

/-- What a bank executes of a packet: operations in slot order, the Proof reads among them, then the flags (R33, R35,
R95, R102). -/
def State.executePacket (b : BankId) (d : DPacket) (s : State) : State :=
  let s1 := s.modBank b fun k => { k with hold := false, ack := d.tick.extractLsb' 0 8 }
  let s2 := s1.each d.ops fun e t => t.bankOp b e
  let s3 := if d.batch then s2.batchApply b else s2
  s3.modBank b (Bank.takeService d.svc)

/-- A good downstream packet: its setpoints are held for the next tick edge; in operation hold nothing executes until a
packet with the resume flag; the safe-level request always acts (R35, R326). -/
def State.receiveDown (b : BankId) (d : DPacket) (s : State) : State :=
  let run := d.resume || !s.banks[b].hold
  let s1 := s.modBank b fun k => { k with badDn := 0, recv := some d, tickNo := d.tick }
  let s2 := if run then s1.executePacket b d else s1
  if d.safe then s2.forceSafe b 4 else s2

/-- DOWNSTREAM_PACKET_RECEIVE (R35): the packet in flight to a bank that hears its link. -/
def State.downstream (b : BankId) (ok : Bool) (s : State) : State :=
  let k := s.banks[b]
  match k.dpkt with
  | none => s
  | some d =>
    let s1 := s.modBank b fun k => { k with dpkt := none }
    if !k.clocked || !k.lock then s1
    else if ok then s1.receiveDown b d else s1.discardDown b

/-- DOWNSTREAM_PACKET_RECEIVE. -/
def execDownstreamPacketReceive (b : BankId) (crcOk : Bool) (s : State) : Host.Outcome State Fault Refusal :=
  .next (s.downstream b crcOk)

/-! ## BANK_TICK_EDGE (R29, R31, R35, R230, R247, R271, R533) -/

/-- A bank's registers as its upstream packet carries them (R34, R37, R332, R366). -/
def State.bankRegs (s : State) (b : BankId) : BankRegs :=
  let k := s.banks[b]
  let period (key : Nat) : Bool := keyOfBank b key && decide (keyAcc key = .period)
  let legs (p : Pos) : LegsBank := s.axes[axisAt b p].legs
  { st := k.st, holdover := k.holdover, lock := k.lock, crcdn := k.crcdn, flt := k.flt,
    pappl := BitVec.ofNat 16 (s.bA b.val 0x2000 0),
    forced := if k.safe.forced then (if k.safe.coast then 2 else 1) else 0,
    spend := s.bankP.pendingWhere period, pulseadj := k.pwm.pulseadj, lat := k.safe.lat,
    stoplvl := s.nstopLow, fltlvl := decide (b.val < 6) && s.nfltLow.getLsbD b.val,
    legflt := Vector.ofFn fun p : Fin 4 => (legs p).fltWord,
    arm := (legs 3).armByte ++ (legs 2).armByte ++ (legs 1).armByte ++ (legs 0).armByte,
    spare := spareStat k.retired (s.wB b.val 0x2300 0) k.spares }

/-- Observer record of an axis with its phase bits (R258, R281). -/
def Axis.record (a : Axis) : Word × Word × Word := a.obs.record (a.loopB.flt ++ a.loopA.flt)

/-- The upstream packet U(k) that begins at this tick edge (R29). -/
def State.upPacket (s : State) (b : BankId) : UPacket :=
  let k := s.banks[b]
  let old := match k.upkt with
    | some u => u.events
    | none => []
  { tick := k.tickNo, ack := k.ack, regs := s.bankRegs b, ksum := k.kiln.summary, broken := k.kiln.broken,
    subx := k.kiln.subx, events := old ++ k.events,
    obs := Vector.ofFn fun p : Fin 4 => s.axes[axisAt b p].record,
    returns := k.returns, entries := k.entries }

/-- The bank begins to send U(k), from its local oscillator too: the upstream channel does not need the recovered clock,
and `HOLDOVER` and `LOCK` are read through it (R29, R37, R42; log 68). -/
def State.sendUp (b : BankId) (s : State) : State :=
  let s1 := s.modBank b fun x => { x with upkt := some (s.upPacket b), events := [], returns := [], entries := [] }
  s1.each allPos fun p t => t.modAxis (axisAt b p) fun a => { a with obs := a.obs.clearEvents }

/-- Whether the harmonic coefficients of an axis are updated at this edge (R230, R314). -/
def State.learns (s : State) (b : BankId) (p : Pos) : Bool :=
  let k := s.banks[b]
  let o := s.axes[axisAt b p].obs
  let c := s.obsCfg (axisAt b p)
  let v := k.sp[p].vff.toInt
  c.hlen && decide (k.st = .run) && o.learnOk && k.sp[p].cur.getLsbD 0 && !k.sp[p].cur.getLsbD 1 && decide (o.mode = .emf)
    && !o.settle && decide (driveMode k.pwm.use.drv p = 0) && decide (v ≠ 0)
    && decide (64 * (v - o.vPrev.toInt).natAbs ≤ v.natAbs)

/-- What the tick that ends leaves for an axis: the fall of the load-adaptive factor and the harmonic update (R230,
R231, R247). -/
def State.endAxisTick (b : BankId) (p : Pos) (s : State) : State :=
  let n := axisAt b p
  let c := s.obsCfg n
  let sp := s.banks[b].sp[p]
  let r := (s.axes[n].obs.lowerF c (sp.cur.getLsbD 2)).learn c (s.learns b p)
  let s1 := s.modAxis n fun a =>
    { a with obs := { r.1 with vPrev := sp.vff, learnOk := c.hlen && decide (s.banks[b].st = .run) } }
  if r.2 then s1.bankTell b (.fault (.axis n) 13) else s1

/-- Velocity of an axis after one tick of orphan deceleration (R533), Q26.6. -/
def orphanVel (qsdec units : Nat) (v : Int) : Int :=
  let d : Int := qsdec * 64 * units / 20000
  if 0 < v then max 0 (v - d) else min 0 (v + d)

/-- Velocity with which an axis of an orphan goes on: 0 at once where it is not energised (R533). -/
def orphanNext (qsdec units : Nat) (a : Axis) (sp : Setpoint) : Int :=
  if sp.cur.getLsbD 0 = false ∨ a.legs.latch then 0 else orphanVel qsdec units sp.vff.toInt

/-- Setpoints and angles of an orphan for the tick that begins (R533). -/
def State.orphanTick (b : BankId) (s : State) : State :=
  let k := s.banks[b]
  let v (p : Fin 4) : Int := orphanNext (s.bA (axisAt b p).val 0x3004 0) s.units s.axes[axisAt b p] k.sp[p]
  let go (p : Fin 4) : Word :=
    if v p = 0 ∧ (k.sp[p].cur.getLsbD 0 = false ∨ s.axes[axisAt b p].legs.latch) then k.a1[p]
    else k.a1[p] + BitVec.ofInt 32 ((angleStep (k.sp[p].vff.toInt + v p) (24000 * s.units)).fdiv 2)
  s.modBank b fun x =>
    { x with a0 := k.a1, a1 := Vector.ofFn go,
             sp := Vector.ofFn fun p : Fin 4 => { k.sp[p] with vff := BitVec.ofInt 32 (v p) },
             noDn := if k.recv.isSome then 0 else k.noDn + 1, recv := none }

/-- Setpoints and angles of the tick that begins: those of the packet received, or an extrapolation from the last good
ones, with operation hold (R31, R35). -/
def Bank.nextSetpoints (units : Nat) (k : Bank) : Bank :=
  match k.recv with
  | some d =>
    { k with a0 := k.a1, a1 := d.sp.map fun x => x.angle, sp := d.sp, inj := d.inj, noDn := 0, recv := none }
  | none =>
    { k with a0 := k.a1,
             a1 := Vector.ofFn fun p : Fin 4 => k.a1[p] + BitVec.ofInt 32 (angleStep k.sp[p].vff.toInt (24000 * units)),
             noDn := k.noDn + 1, hold := true }

/-- The observer mode of the tick that begins (R271). -/
def State.decideAxis (b : BankId) (p : Pos) (s : State) : State :=
  let n := axisAt b p
  let k := s.banks[b]
  s.modAxis n fun a =>
    { a with obs := a.obs.decideMode (s.obsCfg n) k.sp[p].cur k.sp[p].vff.toInt (k.inj.getLsbD p.val) }

/-- Times that the bank counts from the tick edge move to the new edge; running differences of Kiln grow; the live values
of the last centre stay for the scan (R40, R257, R448). -/
def Bank.shiftTick (units : Nat) (k : Bank) : Bank :=
  let d : Int := 24000 * units
  { k with tickNo := k.tickNo + 1, capT := k.cap, kiln := k.kiln.tick units, lastTrig := k.lastTrig - d,
           swap := k.swap.map fun (r : SwapRun) => { r with start := r.start - d },
           pwm := { k.pwm with pstart := if k.pwm.started then k.pwm.pstart - d else k.pwm.pstart } }

/-- A retry's wait counts the time that the bank spends in RUN (R357). -/
def LegsBank.wait (run : Bool) (units : Nat) (l : LegsBank) : LegsBank :=
  if run ∧ l.waiting then { l with waitT := l.waitT + units } else l

/-- BANK_TICK_EDGE (R29, R31, R35, R271, R533). -/
def State.bankTick (b : BankId) (s : State) : State :=
  if s.banks[b].clocked then
    let s1 := (s.sendUp b).each allPos (State.endAxisTick b)
    let s2 := if s.banks[b].st = .orphan then s1.orphanTick b else s1.modBank b (Bank.nextSetpoints s.units)
    let s3 := (s2.modBank b (Bank.shiftTick s.elapsed)).each allPos (State.decideAxis b)
    s3.each allPos fun p t =>
      t.modAxis (axisAt b p) fun a => { a with legs := a.legs.wait (decide (s.banks[b].st = .run)) s.elapsed }
  else s

/-- BANK_TICK_EDGE. -/
def execBankTickEdge (b : BankId) (s : State) : Host.Outcome State Fault Refusal := .next (s.bankTick b)

/-! ## Commands of a bank that leaves the reach of the node (R118, R530) -/

/-- Whether a wait is for something that a bank has to confirm. -/
def Wait.onBank (b : BankId) : Wait → Bool
  | .bank c _ => decide (c = b)
  | .tableDefault c => decide (c = b)
  | .service c _ => decide (c = b)
  | .safeForce left _ => left.contains b
  | .safeRelease c => decide (c = b)
  | .swapLeg c => decide (c = b)
  | .cal c => decide (c = b)
  | _ => false

/-- The engines' and the link's requests for a bank end (R118, R318): a BATCH not yet sent counts as dropped. -/
def Bank.dropRequests (k : Bank) : Bank :=
  { k with ops := [], batches := [], harmDue := 0, softReq := false, renewed := false, svcReq := 0, sentBatch := none, sentSvc := none,
           sentSoft := none, resumeDue := false, svcRun := 0 }

/-- Every command that waits on a bank completes NOLINK, `DETAIL` 1 where its operation had been sent (R118); a COMMIT
that needs the bank does so too. -/
def State.failOps (b : BankId) (s : State) : State :=
  let k := s.banks[b]
  let queued (m : MbId) : Bool := k.ops.any fun e => decide (e.mb = some m) && e.parts.isEmpty && !e.re
  let unsent (m : MbId) : Bool := queued m || (match s.mbx[m].phase with
    | .waiting (.service _ _) => decide (k.svcReq ≠ 0)
    | .waiting (.safeForce _ _) => k.sentSoft.isNone
    | _ => false)
  let waits := s.waiters (Wait.onBank b)
  let s1 := { s with bdrop := if k.batchReq then s.bdrop ||| (1#12 <<< b.val) else s.bdrop }
  let s2 := (s1.modBank b Bank.dropRequests).each waits fun m t => t.err m .nolink (if unsent m then 0 else 1)
  s2.each (s2.commits.filter fun (c : CommitRun) => c.needs.contains b) fun c t => t.commitFail c .nolink

/-! ## UPSTREAM_PACKET_CHECK (R32 to R36) -/

/-- A discarded upstream packet (R35 to R37); what the bank had to tell travels again with the next. -/
def State.discardUp (b : BankId) (u : UPacket) (s : State) : State :=
  let s1 := s.modBank b fun k =>
    { k with crcup := if k.crcup = 0xff then 0xff else k.crcup + 1, miss := true, badUp := k.badUp + 1,
             events := u.events ++ k.events }
  (s1.raise (.bank b) 12).raiseIf (decide (s1.banks[b].badUp = 2)) (.bank b) 13

/-- Status and mirrors of a good packet: state, a link loss that the bank declares, what the link's return asks for. A
bank in SAFE with a latch bit set is no longer reinitialised by the node itself (R34, R36, R37). -/
def Bank.takeStatus (u : UPacket) (k : Bank) : Bank :=
  let on := decide (u.regs.st = .run ∨ u.regs.st = .service)
  let orphan := decide (u.regs.st = .orphan)
  { k with badUp := 0, noUp := 0, seen := true, gone := false, lastUp := u.tick.extractLsb' 0 8, mir := u.regs,
           view := u.regs.st, left := k.left && on, lost := k.lost || (orphan && decide (k.view ≠ .orphan)),
           reinit := (k.reinit || orphan) && !on && !decide (u.regs.st = .safe ∧ u.regs.lat ≠ 0),
           undelivered := (k.undelivered || orphan) && !on }

/-- The mirror of a bank's own faults in `BKFLT`: a bit that the bank sets is set here; a bit that it alone holds and has
cleared since `before` is cleared (R34, R90, R332). -/
def State.takeFaults (b : BankId) (before : Word) (u : UPacket) (s : State) : State :=
  s.modBlock (.bank b) fun f =>
    { f with status := (f.status &&& ~~~(before &&& ~~~u.regs.flt &&& 0x721)) ||| u.regs.flt }

/-- The thermal part of a packet (R449, R451, R453). -/
def State.takeKiln (b : BankId) (u : UPacket) (s : State) : State :=
  let new := u.broken &&& ~~~s.kiln.broken[b]
  let wasX := s.kiln.subx[b]
  let s1 := { s with kiln := { s.kiln with ksum := s.kiln.ksum.set b.val u.ksum, broken := s.kiln.broken.set b.val u.broken,
                                           subx := s.kiln.subx.set b.val u.subx } }
  (s1.raiseIf (decide (new ≠ 0)) .kiln 0).raiseIf (u.subx && !wasX) .kiln 8

/-- An observer record reaches its axis; a stall begins where the record before was below `STALLCNT`, or a
seek has just been armed (R281, R285, R287, R292); INJSKIP and LARSAT (R302). `PHFLTA` and `PHFLTB` follow the phase
bits of its flags (R258). -/
def State.takeRecord (b : BankId) (w : Vector (Word × Word × Word) 4) (p : Pos) (s : State) : State :=
  let n := axisAt b p
  let cnt := fieldN (s.pA n.val 0x3504 0) 0 8
  let r := w[p]
  let was := s.axes[n].obn
  let mirror (i : Nat) (f : FBlock) : FBlock :=
    let now : Word := (r.2.2 >>> (4 * i)) &&& 0xf
    { f with status := (f.status &&& ~~~((was.tqw >>> (4 * i)) &&& 0xf &&& ~~~now)) ||| now }
  let s0 := (s.modBlock (.phase n false) (mirror 0)).modBlock (.phase n true) (mirror 1)
  let s1 := s0.modAxis n fun a =>
    let o : ObsNode := a.obn
    { a with obn := { o with la := r.1, ra := r.2.1, tqw := r.2.2, prevScount := (r.2.1.extractLsb' 8 8).toNat,
                             stallDue := o.stallDue || (r.2.2.getLsbD 8 && (decide (o.prevScount < cnt) || (o.harmed && decide (o.hstate = .seek)))),
                             slipDue := o.slipDue || r.2.2.getLsbD 9 } }
  (s1.raiseIf (decide (r.2.1.extractLsb' 4 3 = 5) && decide (was.ra.extractLsb' 4 3 ≠ 5)) (.axis n) 19).raiseIf
    (r.2.2.getLsbD 11 && !was.tqw.getLsbD 11) (.axis n) 18

/-- What a bank tells (R330, R353, R357, R360, R374, R532). -/
def State.takeEvent (b : BankId) (u : UPacket) (e : BankEvent) (s : State) : State :=
  match e with
  | .fault i bit =>
    (s.raise i bit).modBank b fun k => { k with miss := k.miss || decide (i = .bank b ∧ (bit = 12 ∨ bit = 13)) }
  | .axisOff p => s.modAxis (axisAt b p) fun a => { a with eng := { a.eng with offReq := true, edge := false } }
  | .retryDue p => s.modAxis (axisAt b p) fun a => { a with legn := { a.legn with retryDue := true } }
  | .trgDrop => s
  | .swapDone result byte =>
    s.each (s.waiters fun w => w = .swapLeg b) fun m t =>
      let w := result ++ 0#14 ++ u.regs.spare.extractLsb' 0 16
      t.done m (if t.mbx[m].opcode = 0x180 then [w, 0#24 ++ byte] else [w])
  | .calDone mA => s.each (s.waiters fun w => w = .cal b) fun m t => t.done m [0#16 ++ mA]
  | .opRefused tag =>
    match s.banks[b].ops.find? fun (e : OpEntry) => e.tag = tag with
    | some e => (match e.mb with
      | some m => (match s.mbx[m].phase with
        | .waiting w => if w.onBank b then s.err m .state 0 else s
        | _ => s)
      | none => s)
    | none => s

/-- The drops of a tick (R374, R394). -/
def State.takeDrops (b : BankId) (u : UPacket) (s : State) : State :=
  let hit := u.events.contains .trgDrop
  let was := s.banks[b].queue.dropLast
  (s.modBank b fun k => { k with queue := { k.queue with dropLast := hit } }).raiseIf (hit && !was) (.conv b) 2

/-- An acknowledged operation: what it changes in the node, and the completion of its command (R33, R116, R232, R257,
R296). -/
def State.opAcked (b : BankId) (e : OpEntry) (ws : List Word) (s : State) : State :=
  let s1 := match e.op, e.mb with
    | .harm p h, _ => s.modAxis (axisAt b p) fun a => { a with cur := { a.cur with harm := h } }
    | .live ident unit _ _, none =>
      let n : AxisId := Fin.ofNat 48 unit
      if ident = 0x3f40 then s.modAxis n fun a => { a with cur := { a.cur with harm := harmOf (ws.getD 0 0) (ws.getD 1 0) } }
      else if ident = 0x22 then
        s.modAxis n fun a => { a with cur := { a.cur with words := #v[ws.getD 0 0, ws.getD 1 0, ws.getD 2 0, ws.getD 3 0] } }
      else s.modAxis n fun a => { a with obn := { a.obn with hread := some (ws.getD 0 0, ws.getD 1 0) } }
    | .proof, _ => s.bankProofs b (Vector.ofFn fun i : Fin 5 => ws.getD i.val 0)
    | _, _ => s
  match e.mb with
  | none => s1
  | some m => match s1.mbx[m].phase with
    | .waiting (.bank _ got) => s1.done m (if e.op.returns then ws else got)
    | .waiting (.tableDefault _) => s1.done m []
    | _ => s1

/-- Operations that a packet acknowledges: sent whole in a packet whose operations the bank has executed (R35). -/
def OpEntry.acked (ack : Nat) (e : OpEntry) : Bool :=
  decide (e.slots = 0) && (match e.sentAt with
    | some t => decide (t ≤ ack)
    | none => false)

/-- The slots of an operation that were sent and not acknowledged are to be sent again (R35). -/
def OpEntry.again (e : OpEntry) : OpEntry :=
  if e.parts.isEmpty then e
  else { e with slots := e.slots + (e.parts.map fun p => p.2).sum, sentAt := none, re := true, parts := [] }

/-- A packet acknowledges the slots sent up to a tick (R35). -/
def OpEntry.settle (ack : Nat) (e : OpEntry) : OpEntry := { e with parts := e.parts.filter fun p => decide (ack < p.1) }

/-- A read whose words were lost upstream is asked for once more, as a new operation, where a command or a homing axis
waits for it; every other read comes round by itself (R35; log 69). -/
def State.askAgain (b : BankId) (e : OpEntry) (s : State) : State :=
  match e.op, e.mb with
  | _, some m => s.queueOp b e.op e.op.slots (some m)
  | .live ident _ _ _, none => if ident = 0x3f51 then s.queueOp b e.op e.op.slots none else s
  | _, none => s

/-- Acknowledged operations complete (R33, R35, R116). -/
def State.takeAcks (b : BankId) (u : UPacket) (s : State) : State :=
  let ack := tickBack s.tick 256 u.ack.toNat
  let words (e : OpEntry) : Option (List Word) := (u.returns.find? fun (r : Return) => r.tag = e.tag).map fun r => r.words
  let lost (e : OpEntry) : Bool := e.op.returns && (words e).isNone
  let hit := s.banks[b].ops.filter fun (e : OpEntry) => e.acked ack
  let rest := (s.banks[b].ops.filter fun (e : OpEntry) => !e.acked ack).map (OpEntry.settle ack)
  let s1 := (s.modBank b fun k => { k with ops := rest }).each (hit.filter fun e => !lost e) fun e t =>
    t.opAcked b e ((words e).getD [])
  s1.each (hit.filter lost) fun e t => t.askAgain b e

/-- A bank acknowledges a safe-level request (R116, R334). -/
def State.softAcked (b : BankId) (s : State) : State :=
  let s1 := s.modBank b fun k => { k with softReq := false, sentSoft := none }
  s1.each (s1.waiters (fun w => match w with
    | .safeForce left _ => left.contains b
    | _ => false)) fun m t =>
    match t.mbx[m].phase with
    | .waiting (.safeForce left word) =>
      let rest := left.filter fun x => x ≠ b
      if rest = [] then t.done m [word] else t.wait m (.safeForce rest word)
    | _ => t

/-- Flags that a packet acknowledges (R35). -/
def State.takeFlags (b : BankId) (u : UPacket) (s : State) : State :=
  let k := s.banks[b]
  let ack := tickBack s.tick 256 u.ack.toNat
  let past (o : Option Nat) : Bool := match o with
    | some t => decide (t ≤ ack)
    | none => false
  let s1 := s.modBank b fun x =>
    { x with sentBatch := if past x.sentBatch then none else x.sentBatch,
             sentSvc := if past (x.sentSvc.map fun q => q.1) then none else x.sentSvc }
  if past k.sentSoft then s1.softAcked b else s1

/-- Commands that a state of the bank confirms or ends (R154, R335, R530). -/
def State.takeState (b : BankId) (s : State) : State :=
  let v := s.banks[b].view
  let w := s.banks[b].blstat
  s.each allMbs fun m t =>
    match t.mbx[m].phase with
    | .waiting (.service c a) =>
      if c ≠ b then t
      else if v = .safe then (t.err m .state 0).modBank b fun k => { k with svcReq := 0, svcRun := 0, sentSvc := none }
      else if v = (if a = 0 then .run else .service) then (t.done m [w]).modBank b fun k => { k with svcRun := 0 }
      else t
    | .waiting (.safeRelease c) => if c = b ∧ v = .run then t.done m [w] else t
    | _ => t

/-- Entries of a packet load into the bank's queue (R382, R391, R394). -/
def State.loadQueue (b : BankId) (ws : List Word) (s : State) : State :=
  let r := s.banks[b].queue.load 512 (fun i => s.wA b.val 0x6101 i) ws
  (s.modBank b fun k => { k with queue := r.1 }).each r.2 fun f t => t.raise (.conv b) f

/-- Whether a packet shows that operations of its tick's downstream packet did not execute; then the next packet carries
the resume flag and every operation not acknowledged (R35). -/
def State.judgeResume (b : BankId) (u : UPacket) (s : State) : State :=
  if u.ack ≠ u.tick.extractLsb' 0 8 ∧ s.banks[b].resumeAt ≤ tickBack s.tick 65536 u.tick.toNat then
    s.modBank b fun k => { k with resumeDue := true, ops := k.ops.map OpEntry.again }
  else s

/-- A good upstream packet (R32, R34, R35). -/
def State.takeUp (b : BankId) (u : UPacket) (s : State) : State :=
  let was := s.linked b
  let s1 := s.modBank b (Bank.takeStatus u)
  let s2 := if was && !s1.linked b then s1.failOps b else s1
  let s3 := (((s2.takeFaults b s.banks[b].mir.flt u).takeKiln b u).each allPos (State.takeRecord b u.obs)).each u.events (State.takeEvent b u)
  let s4 := (((s3.takeDrops b u).takeAcks b u).takeFlags b u).takeState b
  ((s4.loadQueue b u.entries).judgeResume b u).settle

/-- UPSTREAM_PACKET_CHECK (R32): the packet in flight from a present bank. -/
def State.upstream (b : BankId) (ok : Bool) (s : State) : State :=
  match s.banks[b].upkt with
  | none => s
  | some u =>
    let s1 := (s.modBank b fun k => { k with upkt := none }).countBytes (portUp b) (4 * (34 + u.entries.length))
    if !s1.present b || !s1.links then s1.modBank b fun k => { k with events := u.events ++ k.events } else if ok then s1.takeUp b u else s1.discardUp b u

/-- UPSTREAM_PACKET_CHECK. -/
def execUpstreamPacketCheck (b : BankId) (crcOk : Bool) (s : State) : Host.Outcome State Fault Refusal :=
  .next (s.upstream b crcOk)

/-! ## Loss and return of the link (R36, R38, R42) -/

/-- BANK_LINK_LOST (R36): three ticks without a good packet, or no recovered clock. -/
def State.bankLinkLost (b : BankId) (s : State) : State :=
  let k := s.banks[b]
  if (k.st = .run ∨ k.st = .service) ∧ (3 ≤ k.noDn ∨ k.holdover) then
    s.modBank b fun x => { x with st := .orphan, hold := true, svc := 0, releaseDue := false, cal := false }
  else s

/-- BANK_LINK_LOST. -/
def execBankLinkLost (b : BankId) (s : State) : Host.Outcome State Fault Refusal := .next (s.bankLinkLost b)

/-- NODE_LINK_LOST (R36, R118): three ticks without a good packet from a bank that the node had reached. `BSTATE` stays
what the last good packet reported: it moves only as R38 lists, and only the bank itself enters ORPHAN (log 68). The
fault is raised once for a loss; commands that wait for the bank complete at every declaration. -/
def State.nodeLinkLost (b : BankId) (s : State) : State :=
  if s.linked b ∧ 3 ≤ s.banks[b].noUp ∧ s.present b then
    let s1 := (s.modBank b fun k => { k with lost := true, reinit := true, undelivered := true, gone := true }).failOps b
    (s1.raiseIf (!s.banks[b].gone) (.bank b) 14).settle
  else s

/-- NODE_LINK_LOST. -/
def execNodeLinkLost (b : BankId) (s : State) : Host.Outcome State Fault Refusal := .next (s.nodeLinkLost b)

/-- RECOVERED_CLOCK_LOSS (R42): the bank goes on from its local oscillator. -/
def execRecoveredClockLoss (b : BankId) (s : State) : Host.Outcome State Fault Refusal :=
  .next (if s.banks[b].powered then s.modBank b fun k => { k with holdover := true, lock := false } else s)

/-- BANK_RELOCK (R42): the recovered clock is back; the node sends on its links. -/
def execBankRelock (b : BankId) (s : State) : Host.Outcome State Fault Refusal :=
  .next (if s.banks[b].powered ∧ s.links ∧ s.present b then
      s.modBank b fun k => { k with holdover := false, lock := true } else s)

/-- A bank enters RUN under the node: its configuration is delivered, the link starts afresh (R26, R36, R319, R330). -/
def State.initialise (b : BankId) (s : State) : State :=
  let s1 := ((s.deliver b).bankRun b).modBank b fun k =>
    { k with view := .run, left := false, reinit := false, undelivered := false, gone := false, hold := false, lock := true,
             holdover := false, ack := BitVec.ofNat 8 s.tick, tickNo := BitVec.ofNat 16 s.tick, resumeAt := s.tick, noDn := 0, noUp := 0, badDn := 0, badUp := 0,
             mir := { k.mir with st := .run }, upkt := none,
             events := (match k.upkt with | some u => u.events | none => []) ++ k.events }
  s1.lateCauses b

/-- An axis whose bank has left RUN enters OFF at the next tick edge, whatever the bank reports there (R179, R329). -/
def State.axesOff (b : BankId) (s : State) : State :=
  s.each allPos fun p t => t.modAxis (axisAt b p) fun a => { a with eng := { a.eng with offReq := true, edge := false } }

/-- BANK_LINK_UP (R26, R38, R363, R598). -/
def State.linkUp (b : BankId) (s : State) : State :=
  if s.banks[b].st = .linking ∧ s.links ∧ s.present b then ((s.deliverCopies b).initialise b).axesOff b else s

/-- BANK_LINK_UP. -/
def execBankLinkUp (b : BankId) (s : State) : Host.Outcome State Fault Refusal := .next (s.linkUp b)

/-- Every axis of a bank is OFF. -/
def State.allOff (s : State) (b : BankId) : Bool := allPos.all fun p => decide (s.axes[axisAt b p].eng.st = .off)

/-- BANK_REINITIALISE (R36): a bank that has reached SAFE after a link loss with no latch bit set goes to RUN, every axis
being OFF (R329). -/
def State.reinitialise (b : BankId) (s : State) : State :=
  let k := s.banks[b]
  if k.view = .safe ∧ k.reinit ∧ k.mir.lat = 0 ∧ k.st = .safe ∧ k.safe.lat = 0 ∧ k.lock ∧ s.links ∧ s.present b
      ∧ s.allOff b then
    s.initialise b
  else s

/-- BANK_REINITIALISE. -/
def execBankReinitialise (b : BankId) (s : State) : Host.Outcome State Fault Refusal := .next (s.reinitialise b)

/-- ORPHAN_DECEL_END (R38, R533): every axis has stopped and no release runs; the legs are in BRAKE. -/
def State.orphanEnd (b : BankId) (s : State) : State :=
  let still := allPos.all fun p => decide (s.banks[b].sp[p].vff = 0) && decide (s.axes[axisAt b p].legs.rel = .none)
  if s.banks[b].st = .orphan ∧ still then
    (s.modBank b fun k =>
      { k with st := .safe, safe := { k.safe with forced := true, coast := k.safe.coast && decide (k.safe.lat ≠ 0) } }).each
      allPos fun p t => t.modAxis (axisAt b p) (Axis.force true)
  else s

/-- ORPHAN_DECEL_END. -/
def execOrphanDecelEnd (b : BankId) (s : State) : Host.Outcome State Fault Refusal := .next (s.orphanEnd b)

/-! ## Supply of a bank (R26, R38) -/

/-- The node's side of a bank whose supply or carrier changes: no request stands. -/
def Bank.nodeSide (v : BState) (k : Bank) : Bank :=
  { view := v, crcup := k.crcup, lost := k.lost, miss := k.miss, queue := k.queue, scanPos := k.scanPos,
    mir := { k.mir with st := v, lock := false, holdover := false, crcdn := 0, flt := 0 }, missed := k.missed, offsets := k.offsets, spares := k.spares,
    retired := k.retired, st := v }

/-- The bank's side of an axis without supply: nothing is kept (R26). -/
def Axis.unpowered (a : Axis) : Axis := { a with loopA := {}, loopB := {}, obs := {}, legs := {} }

/-- BANK_SUPPLY_UP (R26, R38): the bank is in LINKING, its gates off, with the safe causes present now latched. -/
def State.supplyUp (b : BankId) (s : State) : State :=
  if s.banks[b].st = .unpowered ∧ s.present b ∧ s.attached b then
    let s1 := s.modBank b (Bank.nodeSide .linking)
    let c := s1.safeCauses b
    if c = 0 then s1 else s1.modBank b fun k => { k with safe := { k.safe with lat := c, forced := true } }
  else s

/-- BANK_SUPPLY_UP. -/
def execBankSupplyUp (b : BankId) (s : State) : Host.Outcome State Fault Refusal := .next (s.supplyUp b)

/-- BANK_SUPPLY_DOWN (R26, R38, R118). -/
def State.supplyDown (b : BankId) (s : State) : State :=
  if s.banks[b].powered then
    let s1 := if s.linked b then s.failOps b else s
    (((s1.modBank b (Bank.nodeSide .unpowered)).each allPos fun p t => t.modAxis (axisAt b p) Axis.unpowered)).settle
  else s

/-- BANK_SUPPLY_DOWN. -/
def execBankSupplyDown (b : BankId) (s : State) : Host.Outcome State Fault Refusal := .next (s.supplyDown b)

/-! ## SERVICE (R530) and the safe-state channel (R324 to R330) -/

/-- Whether an axis lets its bank enter SERVICE (R530): at rest and STANDBY, FROZEN or OFF, or OFF where it is
de-energised. -/
def Engine.serviceReady (off : Bool) (e : Engine) : Bool :=
  decide (e.st = .off) || (!off && e.atRest && decide (e.st = .standby ∨ e.st = .frozen))

/-- SERVICE_ENTRY (R38, R530). -/
def State.serviceEntry (b : BankId) (s : State) : State :=
  let k := s.banks[b]
  if k.st = .run ∧ k.svc ≠ 0 ∧ allPos.all fun p => s.axes[axisAt b p].eng.serviceReady (decide (k.svc = 2)) then
    s.modBank b fun x => { x with st := .service, svc := 0 }
  else s

/-- SERVICE_ENTRY. -/
def execServiceEntry (b : BankId) (s : State) : Host.Outcome State Fault Refusal := .next (s.serviceEntry b)

/-- SAFE_INPUT_ASSERT (R324, R326, R330): nSTOP for every bank, nFLTn for its own; a node without power or a level
already low changes nothing in the banks. -/
def State.safeAssert (stop : Bool) (b : BankId) (s : State) : State :=
  if stop then
    (if s.nstopLow then s
     else
       let s1 := { s with nstopLow := true }
       if s.powered then s1.each s1.presentBanks fun c t => t.inputSafe c 1 4 else s1)
  else if s.nfltLow.getLsbD b.val ∨ 6 ≤ b.val then s
  else
    let s1 := { s with nfltLow := s.nfltLow ||| (1#12 <<< b.val) }
    if s.powered then s1.inputSafe b 2 3 else s1

/-- SAFE_INPUT_ASSERT. -/
def execSafeInputAssert (stop : Bool) (b : BankId) (s : State) : Host.Outcome State Fault Refusal :=
  .next (s.safeAssert stop b)

/-- SAFE_INPUT_RELEASE (R324, R328): the level rises; the latch stays. -/
def execSafeInputRelease (stop : Bool) (b : BankId) (s : State) : Host.Outcome State Fault Refusal :=
  .next (if stop then { s with nstopLow := false }.causeGone 1
    else
      let s1 := { s with nfltLow := s.nfltLow &&& ~~~(1#12 <<< b.val) }
      s1.modBank b fun k => { k with missed := k.missed &&& ~~~2#5 })

/-- PWM_CLOCK_LOSS (R324, R326, R330): BRAKE, reported as CLKLOSS. -/
def State.clockLoss (b : BankId) (s : State) : State :=
  if s.banks[b].powered ∧ s.banks[b].safe.clkGone = false then
    ((s.modBank b fun k => { k with safe := { k.safe with clkGone := true } }).forceSafe b 16).bankTell b (.fault (.bank b) 5)
  else s

/-- PWM_CLOCK_LOSS. -/
def execPwmClockLoss (b : BankId) (s : State) : Host.Outcome State Fault Refusal := .next (s.clockLoss b)

/-- PWM_CLOCK_RETURN (R324): the cause of `CLK` has gone. -/
def execPwmClockReturn (b : BankId) (s : State) : Host.Outcome State Fault Refusal :=
  .next (s.modBank b fun k => { k with safe := { k.safe with clkGone := false } })

end Sys2Proof.Machine
end

