-- ==== Sys2Proof/Machine/UnitCmds.lean ====
section
/-! DEFINITION. Commands of the banks' safe states and spare legs, of the queues, the feedback channels, Kiln and the fault
log (10_pwm.md R333 to R335, 11_gate_drive_and_legs.md R359, R364, R369, R370, 12_sampling_and_queues.md R390,
13_position_feedback.md R418, 15_kiln.md R463, 16_faults.md R483). -/
namespace Sys2Proof.Machine

/-! ## Safe levels (R333 to R335) -/

/-- Banks of the side that a mailbox names (R540). -/
def State.sideBanks (s : State) (m : MbId) : List BankId :=
  s.presentBanks.filter fun b => decide (b.val < 6) != s.carries m

/-- Sets the request of R334 for banks that the node reaches; the command waits for their acknowledgement. -/
def State.forceBanks (m : MbId) (l : List BankId) (s : State) : State :=
  let hit := l.filter s.linked
  let word := bitsOf 6 fun k => hit.any fun b => decide (b.val % 6 = k)
  let s1 := s.each hit State.requestSoft
  if hit = [] then s1.done m [word] else s1.wait m (.safeForce hit word)

/-- SAFE_FORCE (R334). -/
def State.safeForce (m : MbId) (t : Target) (s : State) : State :=
  match t with
  | .bank b => if s.linked b then s.forceBanks m [b] else s.err m .nolink 0
  | _ => s.forceBanks m (s.sideBanks m)

/-- SAFE_FORCE. -/
def execSafeForce (m : MbId) (s : State) : Host.Outcome State Fault Refusal := .next (s.run m 2 0x140 (State.safeForce m))

/-- SAFE_RELEASE (R335). A bank whose link was lost takes its configuration again before it runs (R26, R36, R38). -/
def State.safeReleaseCmd (m : MbId) (t : Target) (s : State) : State :=
  match t with
  | .bank b =>
    if s.banks[b].view = .safe then
      let s1 := if s.banks[b].undelivered then
          (s.deliver b).modBank b fun k => { k with undelivered := false, reinit := false }
        else s
      (s1.queueOp b .safeRelease 1 (some m)).wait m (.safeRelease b)
    else s.err m .state 0
  | _ => s.err m .target 0

/-- SAFE_RELEASE. -/
def execSafeRelease (m : MbId) (s : State) : Host.Outcome State Fault Refusal :=
  .next (s.run m 2 0x141 (State.safeReleaseCmd m))

/-! ## Spare legs (R359, R364, R369, R370) -/

/-- A swap or return runs in a bank, as the node knows it (R359). -/
def State.swapRuns (s : State) (b : BankId) : Bool :=
  decide (s.waiters (fun w => w = .swapLeg b) ≠ []) || s.banks[b].mir.spare.getLsbD 5 || s.banks[b].mir.spare.getLsbD 13

/-- State of a spare in the mirror of `SPARESTAT` (R366). -/
def spareSt (w : Word) (second : Bool) : Nat := fieldN w.toNat (if second then 14 else 6) 2

/-- Whether the mirror shows an enabled idle spare that `SPSEL` chooses (R359). -/
def spareFree (w : Word) (sel : BitVec 2) : Bool :=
  let f1 := decide (spareSt w false = 0)
  let f2 := decide (spareSt w true = 0)
  if sel = 1 then f1 else if sel = 2 then f2 else f1 || f2

/-- Whether the mirror shows a spare that serves a leg. -/
def spareServes (w : Word) (leg : LegId) : Bool :=
  let is (second : Bool) : Bool := decide (spareSt w second = 1) && decide (fieldN w.toNat (if second then 8 else 0) 4 = leg.val)
  is false || is true

/-- Leg of an axis named by a code (R331, R370). -/
def legOf (n : AxisId) (k : BitVec 2) : LegId := Fin.ofNat 16 (4 * (n.val % 4) + k.toNat)

/-- Conditions of R359 that a swap and a return share. -/
def State.swapBlocked (s : State) (n : AxisId) : Bool :=
  decide (s.banks[bankOf n].view ≠ .service) || decide (s.axes[n].eng.st ≠ .off) || s.swapRuns (bankOf n)

/-- SPARE_SWAP (R359, R370). -/
def State.spareSwap (m : MbId) (t : Target) (s : State) : State :=
  match t with
  | .axis n =>
    let b := bankOf n
    let w := s.mbx[m].pay 1
    let sel := w.extractLsb' 2 2
    if s.swapBlocked n then s.err m .state 0
    else if sel = 3 then s.err m .range 1
    else if !spareFree s.banks[b].mir.spare sel then s.err m .inuse 0
    else (s.queueOp b (.swap (legOf n (w.extractLsb' 0 2)) sel false) 1 (some m)).wait m (.swapLeg b)
  | _ => s.err m .target 0

/-- SPARE_SWAP. -/
def execSpareSwap (m : MbId) (s : State) : Host.Outcome State Fault Refusal := .next (s.run m 2 0x180 (State.spareSwap m))

/-- SPARE_RETURN (R364, R370). -/
def State.spareReturn (m : MbId) (t : Target) (s : State) : State :=
  match t with
  | .axis n =>
    let b := bankOf n
    let leg := legOf n ((s.mbx[m].pay 1).extractLsb' 0 2)
    let w := s.banks[b].mir.spare
    if s.swapBlocked n ∨ !spareServes w leg ∨ w.getLsbD (16 + leg.val) then s.err m .state 0
    else (s.queueOp b (.swap leg 0 true) 1 (some m)).wait m (.swapLeg b)
  | _ => s.err m .target 0

/-- SPARE_RETURN. -/
def execSpareReturn (m : MbId) (s : State) : Host.Outcome State Fault Refusal := .next (s.run m 2 0x181 (State.spareReturn m))

/-! ## Queues (R390) -/

/-- QUEUE_FLUSH (R390). -/
def State.queueFlush (m : MbId) (t : Target) (s : State) : State :=
  match t with
  | .bank b =>
    (s.modBank b fun k => { k with queue := k.queue.flush }).done m [0#22 ++ BitVec.ofNat 10 s.banks[b].queue.fifo.length]
  | _ => { s with auxq := s.auxq.flush }.done m [0#22 ++ BitVec.ofNat 10 s.auxq.fifo.length]

/-- QUEUE_FLUSH. -/
def execQueueFlush (m : MbId) (s : State) : Host.Outcome State Fault Refusal := .next (s.run m 2 0x1c0 (State.queueFlush m))

/-! ## Feedback channels (R418) -/

/-- FB_SET (R407, R408, R418). -/
def State.fbSet (m : MbId) (t : Target) (s : State) : State :=
  match t with
  | .fb n =>
    let c := s.fbCfg n
    if c.mode = 0 then s.err m .state 0
    else (s.modFb n (FbChan.redefine c (s.mbx[m].pay 1))).done m [s.fbs[n].count]
  | _ => s.err m .target 0

/-- FB_SET. -/
def execFbSet (m : MbId) (s : State) : Host.Outcome State Fault Refusal := .next (s.run m 2 0x200 (State.fbSet m))

/-- FB_XREF (R405, R418). -/
def State.fbXref (m : MbId) (t : Target) (s : State) : State :=
  match t with
  | .fb n =>
    if (s.fbCfg n).mode = 4 then (s.modFb n fun f => { f with xref := none, xmisUp := false }).done m [] else s.err m .state 0
  | _ => s.err m .target 0

/-- FB_XREF. -/
def execFbXref (m : MbId) (s : State) : Host.Outcome State Fault Refusal := .next (s.run m 2 0x201 (State.fbXref m))

/-! ## Kiln (R463) -/

/-- KILN_RESTORE (R463): the response is taken before the operation travels. -/
def State.kilnRestore (m : MbId) (t : Target) (s : State) : State :=
  match t with
  | .bank b =>
    if s.linked b then
      (s.queueOp b (.kiln ((s.mbx[m].pay 1).extractLsb' 0 9)) 1 (some m)).wait m
        (.bank b [s.kiln.shown[b].extractLsb' 16 16 ++ 0#16])
    else s.err m .nolink 0
  | _ => s.err m .target 0

/-- KILN_RESTORE. -/
def execKilnRestore (m : MbId) (s : State) : Host.Outcome State Fault Refusal := .next (s.run m 2 0x280 (State.kilnRestore m))

/-! ## Faults (R483) -/

/-- FAULT_LOG (R482, R483). -/
def State.faultLog (m : MbId) (_ : Target) (s : State) : State :=
  let x := s.mbx[m]
  let n := if x.count = 0 then 7 else ((x.pay 1).extractLsb' 0 3).toNat
  if n = 0 then s.err m .range 1
  else
    let l := s.fn.log.take n
    { s with fn := { s.fn with log := s.fn.log.drop n, lost := 0 } }.done m
      ((0#16 ++ BitVec.ofNat 8 l.length ++ s.fn.lost) :: l.flatMap fun (e : Word × Word) => [e.1, e.2])

/-- FAULT_LOG. -/
def execFaultLog (m : MbId) (s : State) : Host.Outcome State Fault Refusal := .next (s.run m 2 0x2c0 (State.faultLog m))

/-- The fault block that FAULT_TEST names (R483). -/
def Target.testBlock (t : Target) (group : Bool) : Option BlockId :=
  match t with
  | .bank b => some (if group then .conv b else .bank b)
  | t => t.block?

/-- FAULT_TEST (R469, R483): the raise with its reactions, and none of the source's own effects. -/
def State.faultTest (m : MbId) (t : Target) (s : State) : State :=
  let w := s.mbx[m].pay 1
  let bit := (w.extractLsb' 0 5).toNat
  match t.testBlock (w.getLsbD 5) with
  | none => s.err m .target 0
  | some i =>
    match classOf s.part i bit with
    | none => s.err m .range 1
    | some _ =>
      if (s.block i).fen.getLsbD bit = false then s.err m .state 1
      else
        let r := s.raiseT i bit true
        if r.2 = 4 then r.1 else r.1.done m [BitVec.ofNat 32 r.2]

/-- FAULT_TEST. -/
def execFaultTest (m : MbId) (s : State) : Host.Outcome State Fault Refusal := .next (s.run m 2 0x2c1 (State.faultTest m))

end Sys2Proof.Machine
end

