-- ==== Sys2Proof/Machine/Entry.lean ====
section
/-! DEFINITION. Mains entry, input budget, precharge, chopper, discharge, auxiliary supplies and keep supply
(14_mains_bus_and_energy.md R419 to R444). -/
namespace Sys2Proof.Machine

/-- Changes the power entry. -/
def State.modEntry (f : Entry → Entry) (s : State) : State := { s with entry := f s.entry }

/-- A fault of the power-entry block; a node without power raises none. -/
def State.entryFault (bit : Nat) (s : State) : State := if s.powered then s.raise .entry bit else s

/-- A brake resistor is fitted (R428); the entry holds the last value through a reset of the node, and the chopper is
off without node logic power (R563). -/
def State.chopen (s : State) : Bool :=
  s.powered && (if s.refOk then decide (fieldN (s.pA 0 0x1400 0) 2 1 = 1) else s.entry.chopHeld)

/-- Precharge restarts by itself (R427). -/
def State.autorst (s : State) : Bool := decide (fieldN (s.pA 0 0x1400 0) 3 1 = 1)

/-! ## Mains and the budget (R420 to R423) -/

/-- P130 and P190 of a variant (R420). -/
def Part.budgets : Part → Nat × Nat
  | .g8 => (900, 1200)
  | .g16 => (1300, 2200)
  | .g24 => (1500, 3200)
  | .g24t => (1500, 3200)

/-- The input budget at a mains voltage in 0.1 V (R420). -/
def budgetAt (p : Part) (v : Nat) : Nat :=
  let b := p.budgets
  if v ≤ 1300 then b.1
  else if 1900 ≤ v then b.2
  else (b.1 * 600 + (b.2 - b.1) * (v - 1300)) / 6000 * 10

/-- A half-cycle whose peak lies above 60 V shows that mains is present (R423): rms in 0.1 V. -/
def halfPresent (rms : Nat) : Bool := decide (600 * 600 < 2 * rms * rms)

/-- MAINS_HALF_CYCLE (R419, R423). -/
def State.halfCycle (rms : Half) (s : State) : State :=
  let v := rms.toNat
  let e := s.entry
  let s1 := s.modEntry fun e =>
    { e with halves := (v :: e.halves).take 10, mainsok := e.mainsok || halfPresent v, high := e.high || decide (2750 < v),
             pfcOn := e.pfcOn && !decide (2750 < v) }
  if 2750 < v ∧ e.high = false then s1.entryFault 2 else s1

/-- MAINS_HALF_CYCLE. -/
def execMainsHalfCycle (rms : Half) (s : State) : Host.Outcome State Fault Refusal := .next (s.halfCycle rms)

/-- The lowest value of a list, 0 of none. -/
def lowest (l : List Nat) : Nat := l.tail.foldl min (l.headD 0)

/-- The reported budget after a candidate (R421). Before any half-cycle has been measured there is none (log 78). -/
def Entry.candidate (part : Part) (e : Entry) : Entry :=
  let v := lowest e.halves
  if !e.mainsok then { e with vmains := BitVec.ofNat 16 v, cands := [], pbud := part.budgets.2 }
  else if e.halves = [] then e
  else
    let c := budgetAt part v
    let l := (c :: e.cands).take 20
    { e with vmains := BitVec.ofNat 16 v, cands := l, low := e.low && decide (v < 800),
             pbud := if c < e.pbud then c else if l.length = 20 ∧ e.pbud < lowest l then lowest l else e.pbud }

/-- Most input power that the PFC stage draws (R422): `PBUD` while it limits, else 1.25 times that. -/
def Entry.powerLimit (e : Entry) : Nat := if e.inlim then e.pbud else 5 * e.pbud / 4

/-- The accounts over 100 ms (R422, R431) against the budget that held in them, the sample taken for all of it (log 78). What
discharges have drawn, and what refilled between them, are free values (log 4). -/
def Entry.accounts (drawn back : Nat) (e : Entry) : Entry :=
  { e with ovacc := if e.pbud < e.pin.toNat then e.ovacc - 100 else min 1000 (e.ovacc + 10),
           dacc := if e.disch ∨ e.drew then min 400 (e.dacc - drawn + (if e.disch then 0 else min 4 back)) else min 400 (e.dacc + 4),
           drew := e.disch }

/-- BUDGET_UPDATE (R421, R422, R443): every 100 ms, with the input power that the load asks for. The bus voltage is a free
value (log 4). -/
def State.budgetUpdate (pin : Half) (s : State) : State :=
  let r := s.fresh
  let q := r.2.fresh
  q.2.modEntry fun e =>
    ({ e with pin := BitVec.ofNat 16 (min pin.toNat e.powerLimit), vbus := r.1.extractLsb' 0 16 }.accounts
      (q.1.extractLsb' 0 9).toNat (q.1.extractLsb' 9 2).toNat).candidate s.part

/-- BUDGET_UPDATE. -/
def execBudgetUpdate (pin : Half) (s : State) : Host.Outcome State Fault Refusal :=
  .next (if s.powered then s.budgetUpdate pin else s)

/-- MAINS_LOW (R423): once when it begins. -/
def execMainsLow (s : State) : Host.Outcome State Fault Refusal :=
  .next (if s.entry.low then s else (s.modEntry fun e => { e with low := true }).entryFault 1)

/-- MAINS_HIGH_RECOVER (R423): the PFC stage switches again. -/
def execMainsHighRecover (s : State) : Host.Outcome State Fault Refusal :=
  .next (s.modEntry fun e =>
    if e.high then { e with high := false, pfcOn := decide (e.st = .ramp ∨ e.st = .run) } else e)

/-- MAINS_FREQ (R423): the fourth cycle outside 45 to 65 Hz within 1 s, or a further one. The condition runs on, and raises
nothing new, while less than 1 s has passed since the last (log 78). -/
def State.mainsFreq (s : State) : State :=
  let on := s.entry.freqAt.any fun t => decide (s.edgeT < t + 20000)
  let s1 := s.modEntry fun e => { e with freqAt := some s.edgeT }
  if on then s1 else s1.entryFault 3

/-- MAINS_FREQ. -/
def execMainsFreq (s : State) : Host.Outcome State Fault Refusal := .next s.mainsFreq

/-! ## Loss and return (R433 to R435) -/

/-- MAINS_LOSS (R423, R433, R434): the PFC stage stops, the inrush switch opens, banks in RUN or SERVICE are requested
safe; the budget becomes that at 190 V (R421); a refusal stands (R426), and so does mains high until it has recovered. The
chopper runs on by its thresholds (R428). -/
def State.mainsLoss (s : State) : State :=
  if s.entry.mainsok then
    let s1 := s.modEntry fun e =>
      { e with mainsok := false, pfcOn := false, pfcOv := false, inrush := false, xcap := true, returned := false, cands := [],
               inlim := false, pbud := s.part.budgets.2, step := 0,
               dischDue := e.dischDue || decide (e.st ≠ .refused ∧ e.st ≠ .discharge),
               st := if e.st = .refused ∨ e.st = .discharge then e.st else .off }
    let s2 := s1.entryFault 0
    s2.each (s2.presentBanks.filter fun b => decide (b.val < 6) &&
      decide (s2.banks[b].view = .run ∨ s2.banks[b].view = .service)) State.requestSoft
  else s

/-- MAINS_LOSS. -/
def execMainsLoss (s : State) : Host.Outcome State Fault Refusal := .next s.mainsLoss

/-- Step 1 of R424: the precharge current flows with the inrush switch open. -/
def Entry.precharge (e : Entry) : Entry :=
  { e with st := .precharge, step := 1, cause := 0, mainsok := true, inrush := false, xcap := false, disch := false,
           dischDue := false, paused := false, bleed := false, refusing := false, returned := false, again := false, holdOff := false,
           chopShort := false, chopLong := false, chopon := false }

/-- Mains is good and the bus below 60 V: precharge, or a wait for ENTRY_RESTART (R427, R435). -/
def Entry.begin (auto : Bool) (e : Entry) : Entry :=
  if e.holdOff then e else if auto then e.precharge else { e with holdOff := true, returned := false }

/-- MAINS_RETURN (R435): 100 ms of good mains after a loss. -/
def State.mainsReturn (s : State) : State :=
  s.modEntry fun e =>
    let e1 := { e with mainsok := true, xcap := false }
    if e.st = .off ∧ e.dischDue = false then e1.begin s.autorst else { e1 with returned := decide (e.st = .discharge ∨ e.dischDue) }

/-- MAINS_RETURN. -/
def execMainsReturn (s : State) : Host.Outcome State Fault Refusal := .next s.mainsReturn

/-! ## Precharge (R424, R426, R429) -/

/-- PRECHARGE_START (R424): mains appears with the entry in OFF. After a loss it is MAINS_RETURN that precharges (R427,
R435). -/
def execPrechargeStart (s : State) : Host.Outcome State Fault Refusal :=
  .next (if s.entry.st = .off ∧ s.entry.holdOff = false ∧ s.entry.dischDue = false ∧ s.entry.xcap = false then
      s.modEntry Entry.precharge
    else s)

/-- A refusal (R426): the bus is discharged, then the entry is REFUSED. -/
def State.refuse (cause : BitVec 4) (bit : Nat) (s : State) : State :=
  (s.modEntry fun e => { e with cause := cause, inrush := false, pfcOn := false, step := 0, dischDue := true, refusing := true,
                                st := .discharge }).entryFault bit

/-- CAPACITANCE_CHECK (R424): `rise` the time Δt from 40 to 80 V in µs. C = 0.5 A × Δt / 40 V is `rise` / 80 µF. -/
def State.capacitance (rise : Word) (s : State) : State :=
  if s.entry.st = .precharge ∧ s.entry.step = 1 then
    let s1 := s.modEntry fun e => { e with cbus := BitVec.ofNat 16 (min 65535 (rise.toNat / 80)), step := 2 }
    if 520 * 80 < rise.toNat then s1.refuse 1 4 else if rise.toNat < 25 * 80 then s1.refuse 2 4 else s1
  else s

/-- CAPACITANCE_CHECK. -/
def execCapacitanceCheck (rise : Word) (s : State) : Host.Outcome State Fault Refusal := .next (s.capacitance rise)

/-- INRUSH_CLOSE (R422, R424): the PFC stage ramps the bus; the overload account is full. -/
def execInrushClose (s : State) : Host.Outcome State Fault Refusal :=
  .next (if s.entry.st = .precharge ∧ s.entry.step = 2 then
      s.modEntry fun e => { e with st := .ramp, step := 0, inrush := true, pfcOn := !e.high, ovacc := 1000, inlim := false }
    else s)

/-- The chopper test (R429): current in mA, bus in 0.1 V. -/
def State.chopperTest (i bus : Nat) (s : State) : State :=
  if !s.chopen then s
  else if 4 * i < bus then s.entryFault 9
  else if 5 * bus < 2 * i then (s.modEntry fun e => { e with chopShort := true, chopon := false }).entryFault 10
  else s

/-- ENTRY_RUN (R424, R429): `testI` and `bus` are current (mA) and bus (0.1 V) of the chopper test at the end of the
precharge. -/
def execEntryRun (testI bus : Half) (s : State) : Host.Outcome State Fault Refusal :=
  .next (if s.entry.st = .ramp then
      (s.chopperTest testI.toNat bus.toNat).modEntry fun e => { e with st := .run }
    else s)

/-- PRECHARGE_TIMEOUT (R424, R426): 80 V missed within 200 ms, or, late, the mains peak within 1 s. -/
def execPrechargeTimeout (late : Bool) (s : State) : Host.Outcome State Fault Refusal :=
  .next (if s.entry.st = .precharge ∧ s.entry.step = (if late then 2 else 1) then s.refuse (if late then 4 else 3) 5 else s)

/-- REFUSAL_EXPIRE (R426): mains absent for 1 s. -/
def execRefusalExpire (s : State) : Host.Outcome State Fault Refusal :=
  .next (if s.entry.refusing ∧ s.entry.mainsok = false then
      s.modEntry fun e => { e with refusing := false, cause := 0, st := if e.st = .refused then .off else e.st }
    else s)

/-! ## Overload, chopper, bus (R422, R425, R428 to R430) -/

/-- OVERLOAD_EMPTY (R422). -/
def execOverloadEmpty (s : State) : Host.Outcome State Fault Refusal :=
  .next (if s.entry.inlim then s else (s.modEntry fun e => { e with inlim := true, ovacc := 0 }).entryFault 6)

/-- OVERLOAD_REFILLED (R422). -/
def execOverloadRefilled (s : State) : Host.Outcome State Fault Refusal :=
  .next (s.modEntry fun e => if e.inlim then { e with inlim := false, ovacc := 500 } else e)

/-- CHOPPER_SWITCH (R425, R428, R430): the bus passes 430 V, or falls below 420 V, which also lets the PFC stage switch
again and ends the lock of CHOPLONG. -/
def execChopperSwitch (on : Bool) (s : State) : Host.Outcome State Fault Refusal :=
  .next (s.modEntry fun e =>
    if on then
      (if s.chopen ∧ (e.st = .run ∨ e.st = .discharge ∨ e.dischDue) ∧ e.chopShort = false ∧ e.chopLong = false then { e with chopon := true } else e)
    else { e with chopon := e.bleed && s.powered, chopLong := false, pfcOv := false })

/-- CHOPLONG (R430): on for more than `CHOPMAX` ms before the tick ends, which the entry counts by itself while no tick runs; set
aside while the chopper finishes a discharge (R432). -/
def execChoplong (s : State) : Host.Outcome State Fault Refusal :=
  .next (if s.entry.chopon ∧ s.entry.bleed = false ∧ (s.refOk = false ∨ 20 * fieldN (s.pA 0 0x1400 0) 16 16 < s.entry.chopT + s.units) then
      (s.modEntry fun e => { e with chopon := false, chopLong := true }).entryFault 11
    else s)

/-- PFC_OVERVOLTAGE (R425). -/
def execPfcOvervoltage (s : State) : Host.Outcome State Fault Refusal :=
  .next (if s.entry.pfcOn ∧ s.entry.pfcOv = false then (s.modEntry fun e => { e with pfcOv := true }).entryFault 8 else s)

/-- BUS_LOW (R425): once per fall. -/
def execBusLow (s : State) : Host.Outcome State Fault Refusal := .next (if s.entry.st = .run then s.entryFault 7 else s)

/-- AUX_CONVERTER_SWITCH (R425, R438): the supply of the node logic from the bus. -/
def execAuxConverterSwitch (up : Bool) (s : State) : Host.Outcome State Fault Refusal :=
  .next (s.modEntry fun e => { e with supplyUp := up })

/-! ## Discharge (R431, R432) -/

/-- ACTIVE_DISCHARGE_START (R431, R432). One that runs, or waits for its account, goes on as it is. -/
def Entry.startDischarge (e : Entry) : Entry :=
  { e with disch := e.disch || !e.paused, drew := true, dischDue := false, st := .discharge }

/-- ACTIVE_DISCHARGE_START. -/
def execActiveDischargeStart (s : State) : Host.Outcome State Fault Refusal :=
  .next (if s.entry.dischDue then s.modEntry Entry.startDischarge else s)

/-- State of the entry once the bus is below 60 V (R426, R427, R435, R444). -/
def Entry.discharged (auto : Bool) (e : Entry) : Entry :=
  if e.st ≠ .discharge then e
  else if e.refusing then { e with st := .refused }
  else
    let e1 := { e with st := .off }
    if e.again ∧ e.mainsok then e1.precharge
    else if e.returned then { e1 with again := false }.begin auto
    else { e1 with again := false }

/-- DISCHARGE_REACHES_60V (R432, R435): the chopper's continuous conduction ends. -/
def execDischargeReaches60V (s : State) : Host.Outcome State Fault Refusal :=
  .next (s.modEntry fun e =>
    ({ e with chopon := e.chopon && !e.bleed, disch := e.disch && !e.bleed, bleed := false, paused := false }).discharged s.autorst)

/-- DISCHARGE_END (R431): the bus is below 50 V. -/
def execDischargeEnd (s : State) : Host.Outcome State Fault Refusal :=
  .next (s.modEntry fun e =>
    if e.disch then ({ e with disch := false, paused := false, bleed := false, chopon := e.chopon && !e.bleed }).discharged s.autorst
    else e)

/-- DISCHARGE_ACCOUNT_EMPTY (R432): the chopper takes over, or the discharge pauses, as it does where CHOPSHORT keeps the
chopper off (R429, log 78). -/
def State.accountEmpty (s : State) : State :=
  if s.entry.disch ∧ s.entry.bleed = false then
    let chop := s.chopen && !s.entry.chopShort
    (s.modEntry fun e => { e with dacc := 0, bleed := chop, chopon := e.chopon || chop, paused := !chop, disch := chop }).entryFault 12
  else s

/-- DISCHARGE_ACCOUNT_EMPTY. -/
def execDischargeAccountEmpty (s : State) : Host.Outcome State Fault Refusal := .next s.accountEmpty

/-- DISCHARGE_RESUME (R432): the account holds 4 J. -/
def execDischargeResume (s : State) : Host.Outcome State Fault Refusal :=
  .next (s.modEntry fun e => if e.paused then { e with paused := false, disch := true, drew := true, dacc := 40 } else e)

/-! ## Commands (R444) -/

/-- ENTRY_RESTART (R426, R427, R444). A discharge that is due comes first. -/
def State.entryRestart (m : MbId) (_ : Target) (s : State) : State :=
  let e := s.entry
  if e.st = .refused ∨ (e.st = .off ∧ e.mainsok) then
    let s1 := s.modEntry fun e =>
      if e.dischDue then { e with st := .off, cause := 0, refusing := false, holdOff := false, again := true }
      else if e.mainsok then e.precharge
      else { e with st := .off, cause := 0, refusing := false }
    s1.done m [s1.entry.pestat]
  else s.err m .state 0

/-- ENTRY_RESTART. -/
def execEntryRestart (m : MbId) (s : State) : Host.Outcome State Fault Refusal :=
  .next (s.run m 2 0x240 (State.entryRestart m))

/-- BUS_DISCHARGE (R432, R444): only while every present axis is OFF. -/
def State.busDischarge (m : MbId) (_ : Target) (s : State) : State :=
  if s.presentAxes.any fun n => decide (n.val < 24) && decide (s.axes[n].eng.st ≠ .off) then s.err m .state 0
  else
    let s1 := s.modEntry fun e =>
      let e1 : Entry := { e with pfcOn := false, pfcOv := false, inrush := false, step := 0, holdOff := true, inlim := false,
                                 refusing := decide (e.st = PEState.refused) || e.refusing }
      e1.startDischarge
    s1.done m [s1.entry.pestat]

/-- BUS_DISCHARGE. -/
def execBusDischarge (m : MbId) (s : State) : Host.Outcome State Fault Refusal :=
  .next (s.run m 2 0x241 (State.busDischarge m))

/-! ## Auxiliary outputs and the keep supply (R437, R439 to R441) -/

/-- OUTPUT_CURRENT_LIMIT (R437): an enabled output held in limit for 10 ms. -/
def execOutputCurrentLimit (s5v : Bool) (s : State) : Host.Outcome State Fault Refusal :=
  .next (if fieldN (s.pA 0 0x1400 0) (if s5v then 1 else 0) 1 = 1 then s.entryFault (if s5v then 13 else 14) else s)

/-- Charging of the keep source (R440, R441); `ksrc` and `kvmax` of KEEPCFG. -/
def Keep.charge (ksrc kvmax : Nat) (k : Keep) : Keep :=
  let v := k.vkeep.toNat
  let full := if kvmax ≤ v then true else k.full && decide (kvmax < v + 100)
  let may := decide (ksrc ≠ 0) && decide (100 ≤ k.okRun) && k.kntcok && !k.out
  { k with full := full, kchg := may && !full }

/-- A KNTC measurement (R441): the measured values, what it means for charging, and the faults it raises. -/
def Keep.measure (ksrc kvmax : Nat) (temp : Byte) (plausible : Bool) (vkeep : Half) (k : Keep) : Keep × List Nat :=
  let outside := decide (temp.toInt < 0 ∨ 60 < temp.toInt)
  let k1 : Keep := { k with kntct := temp, kntcok := plausible, vkeep := vkeep }
  if !plausible then
    ({ k1 with err := true, out := k.out, okRun := 0 }.charge ksrc kvmax, if k.err || decide (ksrc = 0) then [] else [16])
  else if outside then ({ k1 with err := false, out := true, okRun := 0 }.charge ksrc kvmax, if k.out then [] else [15])
  else ({ k1 with err := false, out := false, okRun := min 100 (k.okRun + 1) }.charge ksrc kvmax, [])

/-- KNTC_MEASURE (R440, R441): every 100 ms. -/
def State.kntc (temp : Byte) (plausible : Bool) (vkeep : Half) (s : State) : State :=
  let c := s.pA 0 0x1800 0
  let r := s.keep.measure (fieldN c 0 2) (fieldN c 16 16) temp plausible vkeep
  { s with keep := r.1 }.each r.2 fun f t => t.entryFault f

/-- KNTC_MEASURE. -/
def execKntcMeasure (temp : Byte) (plausible : Bool) (vkeep : Half) (s : State) : Host.Outcome State Fault Refusal :=
  .next (if s.powered then s.kntc temp plausible vkeep else s)

/-- VKEEP_LOSS (R439): keep RAM and the clock are lost while the node logic is unpowered; what the keep domain holds is free values
(log 4) until the Starter writes keep RAM to 0. -/
def State.vkeepLoss (s : State) : State :=
  let s1 := s.clockGap
  let bytes := (List.range 256).map fun i => (Config.freeWord (s1.free + i)).extractLsb' 0 8
  { s1 with free := s1.free + 257, keep := { s1.keep with ram := putBytes 0 bytes s1.keep.ram, klost := true,
                                                          wake := Config.freeWord (s1.free + 256) } }

/-- VKEEP_LOSS. -/
def execVkeepLoss (s : State) : Host.Outcome State Fault Refusal := .next (if s.powered then s else s.vkeepLoss)

/-- VAUX_CHANGEOVER (R438): VAUX crosses 20 V; no reset. -/
def execVauxChangeover (above : Bool) (s : State) : Host.Outcome State Fault Refusal :=
  .next (s.modEntry fun e => { e with vauxok := above })

end Sys2Proof.Machine
end

