-- ==== Sys2Proof/Machine/LegEvents.lean ====
section
/-! DEFINITION. Leg faults, releases, retries, parity, phase faults and the end of a spare swap
(11_gate_drive_and_legs.md R342 to R364, 08_microsteps_and_current.md R252, R258, 03_register_behaviour.md R99). -/
namespace Sys2Proof.Machine

/-! ## Releases -/

/-- Changes the legs of an axis. -/
def State.modLegs (n : AxisId) (f : LegsBank → LegsBank) (s : State) : State :=
  s.modAxis n fun a => { a with legs := f a.legs }

/-- What follows step 2 (R357): a retry wait, or RETRYEND. -/
def State.afterStep2 (n : AxisId) (s : State) : State :=
  let r := s.axes[n].legs.afterStep2 s.part.retries (fieldN (s.bA (bankOf n).val 0x2101 0) 0 3)
  let s1 := s.modLegs n fun _ => r.1
  if r.2 then s1.bankTell (bankOf n) (.fault (.axis n) 26) else s1

/-- The node is told of a release: the fault, and the axis to take OFF (R353). -/
def State.tellRelease (n : AxisId) (i : BlockId) (bit : Nat) (s : State) : State :=
  (s.bankTell (bankOf n) (.fault i bit)).bankTell (bankOf n) (.axisOff (posOf n))

/-- Every other axis in a bank-scope release goes to step 2 with the axis of the faulting switch (R351). -/
def State.endBankRelease (b : BankId) (n : AxisId) (s : State) : State :=
  s.each (allPos.filter fun p => let l := s.axes[axisAt b p].legs
    decide (axisAt b p ≠ n) && l.bankRel && decide (l.rel ≠ .none)) fun p t =>
    (t.modLegs (axisAt b p) LegsBank.toStep2).afterStep2 (axisAt b p)

/-- A fault in a leg (R347 to R351). -/
def State.legFault (n : AxisId) (f : LegFault) (leg : Pos) (blocks : Bool) (s : State) : State :=
  if s.banks[bankOf n].powered then
    let r := s.axes[n].legs.fault n f leg blocks
    let s1 := s.modAxis n fun a => { a.force false with legs := r.1 }
    let s2 := if r.2.1 then s1.tellRelease n (.axis n) f.axisBit else s1
    let s3 := if r.2.2 then s2.afterStep2 n else s2
    if r.2.2 && s.axes[n].legs.bankRel then s3.endBankRelease (bankOf n) n else s3
  else s

/-- Whether the high side of a leg was the switch last commanded on, at a count of the period that last commanded it (R304,
R346; log 36). -/
def LegsBank.lastHigh (leg : LegAt) (l : LegsBank) : Bool := legHigh l.cut[leg.leg].1 l.cut[leg.leg].2 leg.count

/-- Whether a switch of a leg is commanded on: by the freewheel of a release, a forced BRAKE, or the level of its period
(R304, R325, R338, R347, R348, R354). -/
def State.commandedOn (s : State) (n : AxisId) (leg : LegAt) (high : Bool) : Bool :=
  let l := s.axes[n].legs
  let safe := s.banks[bankOf n].safe
  if l.held.getLsbD leg.leg.val || l.isolLegs.getLsbD leg.leg.val then false
  else match l.rel with
    | .lows => !high
    | .highs => high
    | .none =>
      if l.latch then false
      else if safe.forced then !safe.coast && !high
      else l.energised && decide (l.lastHigh leg = high)

/-- What holds a motor terminal (R565): nothing, an open series switch, the high or the low switch of the leg that drives
it, with the spare that serves it where one does (R11). -/
inductive Terminal where
  | floating
  | isolated
  | driven (high : Bool) (spare : Option Bool)
  deriving DecidableEq, Repr

/-- State of a motor terminal at a count of its leg's period (R565). -/
def State.terminal (s : State) (n : AxisId) (leg : LegAt) : Terminal :=
  let k := s.banks[bankOf n]
  let on := s.commandedOn n leg
  if s.axes[n].legs.isolLegs.getLsbD leg.leg.val then .isolated
  else if k.st = .unpowered ∨ k.st = .linking then .floating
  else if on true then .driven true (servedBy k.spares (Fin.ofNat 16 (4 * (posOf n).val + leg.leg.val)))
  else if on false then .driven false (servedBy k.spares (Fin.ofNat 16 (4 * (posOf n).val + leg.leg.val)))
  else .floating

/-- DESATURATION (R345, R348): a switch is watched only while it is commanded on. -/
def execDesaturation (n : AxisId) (leg : LegAt) (high blocks : Bool) (s : State) : Host.Outcome State Fault Refusal :=
  .next (if s.commandedOn n leg high then s.legFault n (if high then .dsh else .dsl) leg.leg blocks else s)

/-- OVERCURRENT (R345, R346). -/
def execOvercurrent (n : AxisId) (leg : LegAt) (blocks : Bool) (s : State) : Host.Outcome State Fault Refusal :=
  .next (s.legFault n (if s.axes[n].legs.lastHigh leg then .och else .ocl) leg.leg blocks)

/-- Sets or clears the undervoltage of a gate supply (R343). -/
def LegsBank.setUv (leg : Pos) (high on : Bool) (l : LegsBank) : LegsBank :=
  let bit : BitVec 2 := if high then 1 else 2
  { l with uv := l.uv.set leg.val (if on then l.uv[leg.val] ||| bit else l.uv[leg.val] &&& ~~~bit) }

/-- GATE_SUPPLY_UV (R343, R344). -/
def execGateSupplyUv (n : AxisId) (leg : Pos) (high blocks : Bool) (s : State) : Host.Outcome State Fault Refusal :=
  .next (if s.banks[bankOf n].powered then
      (s.modLegs n (LegsBank.setUv leg high true)).legFault n (if high then .uvh else .uvl) leg blocks
    else s)

/-- INTERLOCK (R342). -/
def execInterlock (n : AxisId) (leg : Pos) (s : State) : Host.Outcome State Fault Refusal :=
  .next (s.legFault n .xon leg true)

/-- A bank-scope fault at one axis (R350, R351): it starts a bank release, takes an axis that freewheels through the
faulting side to step 2, or leaves it. Answers whether the axis is concerned and whether step 2 was reached. -/
def LegsBank.bankFault (high : Bool) (cause : BlockId × Nat) (l : LegsBank) : LegsBank × Bool × Bool :=
  match l.rel with
  | .none => if l.latch then (l, false, false) else (l.step1 high true cause, true, false)
  | .lows => if l.enRel then (l.step1 high true cause, true, false)
    else if l.bankRel && !high then (l.toStep2, true, true) else (l, false, false)
  | .highs => if l.bankRel && high then (l.toStep2, true, true) else (l, false, false)

/-- A bank-scope release (R347, R350); the bank fault is raised where it concerns an axis (R351). -/
def State.bankFault (b : BankId) (high : Bool) (bit : Nat) (s : State) : State :=
  let hit := allPos.filter fun p => (s.axes[axisAt b p].legs.bankFault high (.bank b, bit)).2.1
  let s1 := if hit = [] then s else s.bankTell b (.fault (.bank b) bit)
  s1.each hit fun p t =>
    let n := axisAt b p
    let r := t.axes[n].legs.bankFault high (.bank b, bit)
    let t1 := (t.modAxis n fun a => { a.force false with legs := r.1 }).bankTell b (.axisOff p)
    if r.2.2 then t1.afterStep2 n else t1

/-- BUS_OVERVOLTAGE (R345, R347). -/
def execBusOvervoltage (b : BankId) (s : State) : Host.Outcome State Fault Refusal :=
  .next (if s.banks[b].powered then (s.modBank b fun k => { k with busHi := true }).bankFault b true 10 else s)

/-- DRIVER_RAIL_UV (R343, R347). -/
def execDriverRailUv (b : BankId) (s : State) : Host.Outcome State Fault Refusal :=
  .next (if s.banks[b].powered then (s.modBank b fun k => { k with railLo := true }).bankFault b false 9 else s)

/-- GATE_SUPPLY_RECOVER (R343): a gate supply, or the driver rail, has risen above its upper threshold. -/
def execGateSupplyRecover (b : BankId) (leg : Option (LegId × Bool)) (s : State) : Host.Outcome State Fault Refusal :=
  .next (match leg with
    | none => s.modBank b fun k => { k with railLo := false }
    | some (l, high) => s.modLegs (axisAt b ⟨l.val / 4, by omega⟩) (LegsBank.setUv ⟨l.val % 4, by omega⟩ high false))

/-- Every switch of an axis off (R349). -/
def State.toStep2 (n : AxisId) (s : State) : State := (s.modLegs n LegsBank.toStep2).afterStep2 n

/-- RELEASE_TIMEOUT (R349): 4 ms after step 1. -/
def execReleaseTimeout (n : AxisId) (s : State) : Host.Outcome State Fault Refusal :=
  .next (if s.axes[n].legs.rel = .none then s else s.toStep2 n)

/-- RETRY_WAIT_EXPIRE (R357): `RETRYWAIT` ms of RUN have passed before the tick ends. -/
def execRetryWaitExpire (n : AxisId) (s : State) : Host.Outcome State Fault Refusal :=
  let l := s.axes[n].legs
  let wait := fieldN (s.bA (bankOf n).val 0x2101 0) 8 8
  .next (if l.rpend ∧ l.waiting ∧ s.banks[bankOf n].st = .run ∧ 20 * wait ≤ l.waitT + s.units then
      (s.modLegs n fun l => { l with waiting := false }).bankTell (bankOf n) (.retryDue (posOf n))
    else s)

/-! ## Faults that concern no switch (R99, R252, R258, R347) -/

/-- A phase loop of an axis. -/
def Axis.loop (a : Axis) (phB : Bool) : PhaseLoop := if phB then a.loopB else a.loopA

/-- Changes a phase loop. -/
def Axis.modLoop (phB : Bool) (f : PhaseLoop → PhaseLoop) (a : Axis) : Axis :=
  if phB then { a with loopB := f a.loopB } else { a with loopA := f a.loopA }

/-- A phase fault: its bit in the axis flags, and the node is told (R258). -/
def State.phaseFault (n : AxisId) (phB : Bool) (bit : Nat) (s : State) : State :=
  (s.modAxis n (Axis.modLoop phB fun l => { l with flt := l.flt ||| (1#4 <<< bit) })).bankTell (bankOf n)
    (.fault (.phase n phB) bit)

/-- An axis de-energises through step 1 as for a high side, where no release covers it, for a fault of a phase (R347). -/
def State.releaseAxis (n : AxisId) (cause : BlockId × Nat) (s : State) : State :=
  let l := s.axes[n].legs
  let free := decide (l.rel = .none) && !l.latch || l.enRel
  let s1 := if free then s.modAxis n fun a => { a.force false with legs := l.step1 true false cause } else s
  s1.bankTell (bankOf n) (.axisOff (posOf n))

/-- Whether a key names a phase word of a bank (R99, R261). -/
def phaseKey (b : BankId) (key : Nat) : Bool := decide (keyIdent key / 4096 = 4) && keyOfBank b key

/-- Words of an axis's phases that fail parity and had not failed before (R99). A word of `ITABLE`, which both phases share and
the Proof counts under phase A (R261), raises the fault in phase A (log 75). -/
def State.parityFail (b : BankId) (keys : List Nat) (s : State) : State :=
  s.each ((keys.filter (phaseKey b)).eraseDups) fun key t =>
    let n : AxisId := Fin.ofNat 48 (keyUnit key / 2)
    if key ∈ t.axes[n].legs.badWords then t
    else
      let t1 := t.modLegs n fun l => { l with badWords := l.badWords ++ [key] }
      let phB := decide (keyUnit key % 2 = 1)
      (t1.phaseFault n phB 3).releaseAxis n (.phase n phB, 3)

/-- PARITY_SCAN (R99). -/
def execParityScan (b : BankId) (badWords : List Nat) (s : State) : Host.Outcome State Fault Refusal :=
  .next (if s.banks[b].clocked then s.parityFail b badWords else s)

/-- PHASE_SATURATION (R252): more than 16 periods at the clamp, once. -/
def execPhaseSaturation (n : AxisId) (phB : Bool) (s : State) : Host.Outcome State Fault Refusal :=
  let l := s.axes[n].loop phB
  .next (if 16 < l.satRun ∧ l.satUp = false then
      (s.modAxis n (Axis.modLoop phB fun x => { x with satUp := true })).phaseFault n phB 0 else s)

/-- TRACKING_ERROR (R258): `TRKCNT` periods above `TRKLIM`, once. -/
def execTrackingError (n : AxisId) (phB : Bool) (s : State) : Host.Outcome State Fault Refusal :=
  let l := s.axes[n].loop phB
  .next (if (s.loopCfg n phB).trkcnt ≤ l.trkRun ∧ l.trkUp = false ∧ l.trkRun ≠ 0 then
      (s.modAxis n (Axis.modLoop phB fun x => { x with trkUp := true })).phaseFault n phB 1 else s)

/-- OPEN_PHASE (R258): 64 periods without current; the axis is released. -/
def execOpenPhase (n : AxisId) (phB : Bool) (s : State) : Host.Outcome State Fault Refusal :=
  let l := s.axes[n].loop phB
  .next (if 64 ≤ l.openRun ∧ l.openUp = false then
      ((s.modAxis n (Axis.modLoop phB fun x => { x with openUp := true })).phaseFault n phB 2).releaseAxis n (.phase n phB, 2) else s)

/-! ## End of a swap or return (R360 to R364) -/

/-- A spare that no longer serves a terminal: FAILED where the byte of its terminal was not 0 (R362). -/
def Spare.leave (byte : Byte) (_ : Spare) : Spare := { st := if byte = 0 then .idle else .failed, swp := false, leg := 0 }

/-- The spares of a bank with one changed. -/
def setSpare (second : Bool) (f : Spare → Spare) (sp : Vector Spare 2) : Vector Spare 2 :=
  if second then #v[sp[0], f sp[1]] else #v[f sp[0], sp[1]]

/-- A terminal's byte is cleared and it has a path (R360). -/
def LegsBank.served (leg : Nat) (l : LegsBank) : LegsBank :=
  { l with flt := l.flt.mapFinIdx fun i x _ => if i = leg % 4 then 0 else x,
           uv := l.uv.mapFinIdx fun i x _ => if i = leg % 4 then 0 else x,
           isolLegs := l.isolLegs &&& ~~~(1#4 <<< (leg % 4)) }

/-- The bank after a swap that succeeded (R360, R362): the spare serves the terminal; the part it replaces is retired or
leaves. -/
def Bank.swapped (r : SwapRun) (k : Bank) : Bank :=
  let old := servedBy k.spares r.leg
  let sp1 := match old with
    | some x => setSpare x (Spare.leave r.byte) k.spares
    | none => k.spares
  { k with spares := setSpare r.second (fun _ => ⟨.inuse, false, r.leg⟩) sp1, swap := none,
           retired := if old.isNone && decide (r.byte ≠ 0) then k.retired ||| (1#16 <<< r.leg.val) else k.retired }

/-- The bank after a swap that failed (R361): the spare is FAILED; a spare that served the terminal leaves it. -/
def Bank.swapFailed (r : SwapRun) (k : Bank) : Bank :=
  let sp1 := match servedBy k.spares r.leg with
    | some x => setSpare x (Spare.leave r.byte) k.spares
    | none => k.spares
  { k with spares := setSpare r.second (fun _ => ⟨.failed, false, 0⟩) sp1, swap := none }

/-- Whether the own leg of a terminal can take it back after a failed swap: it is not retired, and would not become so, as a
leg with faults recorded does when it is replaced (R360, R361). The byte of a terminal that a spare served is the spare's. -/
def Bank.ownUsable (r : SwapRun) (k : Bank) : Bool :=
  (decide (r.byte = 0) || (servedBy k.spares r.leg).isSome) && !k.retired.getLsbD r.leg.val

/-- SWAPFAIL, and SERSW where a series switch did not confirm (R361, R364). -/
def State.tellSwapFail (b : BankId) (n : AxisId) (seriesOk : Bool) (s : State) : State :=
  let s1 := s.bankTell b (.fault (.axis n) 25)
  if seriesOk then s1 else s1.bankTell b (.fault (.bank b) 8)

/-- SPARE_SWAP_COMPLETE (R360, R361, R364). -/
def State.swapComplete (b : BankId) (checkOk seriesOk : Bool) (s : State) : State :=
  match s.banks[b].swap with
  | none => s
  | some r =>
    let n := axisAt b ⟨r.leg.val / 4, by omega⟩
    let ok := checkOk && seriesOk
    if r.ret then
      if ok then
        let s1 := s.modBank b fun k => { k with spares := setSpare r.second (fun _ => {}) k.spares, swap := none }
        (s1.modLegs n (LegsBank.served r.leg.val)).bankTell b (.swapDone 0 r.byte)
      else
        let s1 := s.modBank b fun k => { k with spares := setSpare r.second (fun x => { x with swp := false }) k.spares, swap := none }
        (s1.tellSwapFail b n seriesOk).bankTell b (.swapDone 1 r.byte)
    else if ok then
      ((s.modBank b (Bank.swapped r)).modLegs n (LegsBank.served r.leg.val)).bankTell b (.swapDone 0 r.byte)
    else
      let back := s.banks[b].ownUsable r
      let s1 := (s.modBank b (Bank.swapFailed r)).tellSwapFail b n seriesOk
      let leg : BitVec 4 := 1#4 <<< (r.leg.val % 4)
      let s2 := s1.modLegs n fun l => { l with isolLegs := if back then l.isolLegs &&& ~~~leg else l.isolLegs ||| leg }
      s2.bankTell b (.swapDone (if back then 1 else 2) r.byte)

/-- SPARE_SWAP_COMPLETE. -/
def execSpareSwapComplete (b : BankId) (checkOk seriesOk : Bool) (s : State) : Host.Outcome State Fault Refusal :=
  .next (s.swapComplete b checkOk seriesOk)

end Sys2Proof.Machine
end

