-- ==== Sys2Proof/Machine/MemPort.lean ====
section
/-! DEFINITION. The memory port: transfers and their order, the mapped window, translated writes, programs and erases, and
the point fetches of memory-fed streams (17_memory_port.md R486 to R509, 07_followers_and_streams.md R208, R209). -/
namespace Sys2Proof.Machine

/-! ## The window (R499) -/

/-- Base of the mapped window. -/
def State.xwBase (s : State) : Nat := s.pA 0 0x7100 0 / 4096 * 4096

/-- The window is enabled. -/
def State.xwen (s : State) : Bool := decide (fieldN (s.pA 0 0x7100 0) 0 1 = 1)

/-- Slot of the window and of the translated writes. -/
def State.xwSlot (s : State) : BitVec 2 := BitVec.ofNat 2 (fieldN (s.pA 0 0x7101 0) 6 2)

/-- Bytes of a device page. -/
def State.xpage (s : State) : Nat := 2 ^ fieldN (s.pA 0 0x7200 0) 4 4

/-- External address of a window offset (R499). -/
def State.extOf (s : State) (o : Nat) : Nat := (s.xwBase + o) % 4294967296

/-- Whether `n` bytes from an external address lie in the window (R208, R505). -/
def State.inWindow (s : State) (a n : Nat) : Bool := decide ((a + 4294967296 - s.xwBase) % 4294967296 + n ≤ 268435456)

/-- Changes the port. -/
def State.modMem (f : MemPort → MemPort) (s : State) : State := { s with mem := f s.mem }

/-- Queues a transfer behind the others. -/
def State.xqueue (k : XKind) (addr : Nat) (slot : BitVec 2) (s : State) : State :=
  s.modMem fun m => { m with waiting := m.waiting ++ [⟨k, addr, slot⟩] }

/-! ## Program operations (R503, R504) -/

/-- External addresses that an operation covers: those of its data, or of its region (R500, R506). -/
def ProgOp.covers (o : ProgOp) (a : Nat) : Bool :=
  match o.erase with
  | none => decide (o.addr ≤ a ∧ a < o.addr + o.data.length)
  | some e => if e.2 = 3 then true
    else decide (o.addr ≤ a ∧ a < o.addr + (if e.2 = 0 then 4096 else if e.2 = 1 then 32768 else 65536))

/-- Whether a line of 32 bytes overlaps an operation. -/
def ProgOp.hitsLine (o : ProgOp) (line : Nat) : Bool := (List.range 32).any fun i => o.covers (line + i)

/-- Whether the mailbox of a run still waits for it. -/
def State.waitsFor (s : State) (m : MbId) (w : Wait) : Bool := decide (s.mbx[m].phase = .waiting w)

/-- Completes a waiting command of the port, if it still waits. -/
def State.endIf (m : MbId) (w : Wait) (f : State → State) (s : State) : State := if s.waitsFor m w then (f s).settle else s

/-- Whether a program operation is under way: sent, being sent, or waiting to be sent. -/
def MemPort.opRuns (m : MemPort) : Bool :=
  m.busy.toList.any (fun o => o.isSome) || (m.cur.toList ++ m.waiting).any fun r => match r.kind with
    | .wren _ => true
    | .prog _ => true
    | _ => false

/-- Step 1 of a program operation: Kiln's window is judged; a refusal ends it, otherwise its write-enable is queued
(R503). `XWCFG`, `XWFMT` and `XWTIME` apply here (R508). Answers whether it was refused. -/
def State.startOp (o : ProgOp) (s : State) : State × Bool :=
  let s1 := { s with nodeP := s.nodeP.applyWhere fun k => decide (keyIdent k = 0x7200 ∨ keyIdent k = 0x7201 ∨ keyIdent k = 0x7202) }
  if s1.kiln.open_ then ((s1.modMem fun m => { m with refused := false }).xqueue (.wren o) o.addr o.slot, false)
  else
    let first := !s1.mem.refused
    ((s1.modMem fun m => { m with refused := true, xaddr := BitVec.ofNat 32 o.addr }).raiseIf first .memPort 1, true)

/-- Bytes of `XBUF` from an offset. -/
def MemPort.xbytes (m : MemPort) (off n : Nat) : List Byte := (List.range n).map fun i => getByte m.xbuf (off + i)

/-- The next operation of a run: a page or part of one, or the erase (R505, R506). -/
def State.nextOp (s : State) (r : ProgRun) : ProgOp :=
  match r.erase with
  | some e => ⟨r.addr, [], some e, s.xwSlot, some r.mb, 0, 0⟩
  | none =>
    let n := min r.left (s.xpage - r.addr % s.xpage)
    ⟨r.addr % 4294967296, s.mem.xbytes r.boff n, none, s.xwSlot, some r.mb, 0, 0⟩

/-- The run of a mailbox ends. -/
def MemPort.dropRun (m : MbId) (x : MemPort) : MemPort := { x with runs := x.runs.filter fun r => r.mb ≠ m }

/-- Starts the next operation of the oldest run when none is under way; a refusal ends its command with TEMP and the
next run follows (R503, R505, R506). -/
def State.advanceRuns : Nat → State → State
  | 0, s => s
  | k + 1, s =>
    match s.mem.runs with
    | [] => s
    | r :: l =>
      if r.active ∨ s.mem.opRuns then s
      else
        let q := s.startOp (s.nextOp r)
        if q.2 then State.advanceRuns k ((q.1.modMem (MemPort.dropRun r.mb)).endIf r.mb .prog (State.err r.mb .temp 0))
        else q.1.modMem fun m => { m with runs := { r with active := true } :: l }

/-- Runs go on as far as they can. -/
def State.runsGo (s : State) : State := s.advanceRuns 8

/-- The write buffer as the data of its page; bytes no store has written are 0xFF (R502). -/
def MemPort.pageData (m : MemPort) (n : Nat) : List Byte := (List.range n).map fun i => cellGet 0xff i m.wbuf

/-- Flushes the write buffer as one program operation (R502, R503). -/
def State.flushBuffer (s : State) : State :=
  match s.mem.wpage with
  | none => s
  | some a =>
    let o : ProgOp := ⟨a, s.mem.pageData s.xpage, none, s.xwSlot, none, 0, 0⟩
    ((s.modMem fun m => { m with wpage := none, wbuf := [] }).startOp o).1

/-! ## Processor reads (R500, R502) -/

/-- The line of an address in the buffer, if it is there. -/
def MemPort.line? (m : MemPort) (a : Nat) : Option (List Byte) :=
  (m.lines.find? fun l => l.1 = a / 32 * 32).map fun l => l.2

/-- Four bytes of a line as a word. -/
def lineWord (l : List Byte) (a : Nat) : Word :=
  let b (i : Nat) : Byte := l.getD (a % 32 / 4 * 4 + i) 0
  b 3 ++ b 2 ++ b 1 ++ b 0

/-- Whether a flush that is not yet sent covers one of n units of `step` bytes from an address, so that a read of them
waits (R502); once it is sent, its slot is busy. -/
def MemPort.flushHolds (m : MemPort) (a n step : Nat) : Bool :=
  (m.cur.toList ++ m.waiting).any fun r => match r.kind with
    | .wren o => o.mb.isNone && (List.range n).any fun i => o.covers (a + step * i)
    | .prog o => o.mb.isNone && (List.range n).any fun i => o.covers (a + step * i)
    | _ => false

/-- A fill of a line is requested or runs. -/
def MemPort.filling (m : MemPort) (a : Nat) : Bool :=
  (m.cur.toList ++ m.waiting).any fun r => match r.kind with
    | .fill => decide (r.addr = a / 32 * 32)
    | _ => false

/-- Serves the reads that wait: from the line buffer, or by a fill (R500). -/
def State.serveReads (s : State) : State :=
  s.each s.mem.readWait fun a t =>
    match t.mem.line? a with
    | some l => t.modMem fun m => { m with readData := lineWord l a, readWait := m.readWait.filter fun b => b ≠ a }
    | none => if t.mem.filling a then t else t.xqueue .fill (a / 32 * 32) t.xwSlot

/-- WINDOW_READ (R499, R500, R502). -/
def State.windowRead (o : BitVec 28) (s : State) : State :=
  if !s.xwen then s.modMem fun m => { m with readData := 0 }
  else
    let a := s.extOf o.toNat
    let s1 := if s.mem.wpage = some (a / s.xpage * s.xpage) then s.flushBuffer else s
    (s1.modMem fun m => { m with readWait := m.readWait ++ [a] }).serveReads

/-- WINDOW_READ. -/
def execWindowRead (offset : BitVec 28) (s : State) : Host.Outcome State Fault Refusal := .next (s.windowRead offset)

/-- One stored byte: a store in another page flushes first (R502). -/
def State.storeByte (o : Nat) (v : Byte) (s : State) : State :=
  let a := s.extOf o
  let p := a / s.xpage * s.xpage
  let s1 := if s.mem.wpage = none ∨ s.mem.wpage = some p then s else s.flushBuffer
  s1.modMem fun m => { m with wpage := some p, wbuf := cellSet 0xff (a - p) v m.wbuf }

/-- WINDOW_STORE (R499, R502). -/
def execWindowStore (offset : BitVec 28) (data : List Byte) (s : State) : Host.Outcome State Fault Refusal :=
  .next (if s.xwen then s.each data.zipIdx fun p t => t.storeByte (offset.toNat + p.2) p.1 else s)

/-- WRITE_BUFFER_FLUSH (R502): 20 µs have passed with no store. -/
def execWriteBufferFlush (s : State) : Host.Outcome State Fault Refusal := .next s.flushBuffer

/-! ## Choosing and starting a transfer (R497, R498, R501) -/

/-- Priority of a request; the program transfer follows its write-enable at once (R497). DEDUCED (log 81): within priority 4 too
the request that was made first goes first. -/
def XKind.prio : XKind → Nat
  | .prog _ => 0
  | .fetch _ _ => 1
  | .fill => 2
  | .wren o => if o.mb.isSome then 4 else 3
  | .poll _ => 3
  | .raw _ _ _ _ => 4
  | .fw _ _ _ => 4
  | .dead _ => 1

/-- Whether a request may go to its slot now: only polls go to a busy slot (R498); a read waits for a flush of what it
reads (R502). -/
def MemPort.free (m : MemPort) (r : XReq) : Bool :=
  match r.kind with
  | .poll _ => true
  | .fetch _ k => m.busy[r.slot.toNat].isNone && !m.flushHolds r.addr k 8
  | .fill => m.busy[r.slot.toNat].isNone && !m.flushHolds r.addr 32 1
  | _ => m.busy[r.slot.toNat].isNone

/-- Priority of a waiting request: a poll of an operation that a command runs is a step of that command (R497). -/
def MemPort.prioOf (m : MemPort) (r : XReq) : Nat :=
  match r.kind with
  | .poll c => (match m.busy[c.toNat] with
    | some o => if o.mb.isSome then 4 else 3
    | none => 3)
  | k => k.prio

/-- The waiting request that starts next: the oldest of the highest priority that may go (R497). -/
def MemPort.choose (m : MemPort) : Option XReq :=
  let ok := m.waiting.filter m.free
  [0, 1, 2, 3, 4].findSome? fun p => ok.find? fun r => m.prioOf r = p

/-- The pin that a slot's chip select is mapped to (R486). -/
def State.csPin (s : State) (slot : BitVec 2) : Nat := fieldN (s.pA 0 0x7001 0) (4 * slot.toNat) 4

/-- Function of a GPIO pin (R569). -/
def State.pinFn (s : State) (p : Nat) : Nat := fieldN (s.pA 0 0x1700 (p / 8)) (4 * (p % 8)) 4

/-- The port parameters of the FRAME boundary come into force (R501); a changed base or read format invalidates the
lines, a changed window flushes the buffer (R500, R502). -/
def State.applyFrame (s : State) : State :=
  let is (k i : Nat) : Bool := decide (keyIdent k = i)
  let moved := s.nodeP.pendingWhere fun k => is k 0x7100
  let lines := s.nodeP.pendingWhere fun k => is k 0x7100 || is k 0x7101
  let s1 := if moved then s.flushBuffer else s
  let s2 := { s1 with nodeP := s1.nodeP.applyWhere fun k => is k 0x7000 || is k 0x7001 || is k 0x7100 || is k 0x7101 }
  if lines then s2.modMem fun m => { m with lines := [] } else s2

/-- A transfer that the Starter runs, with the chip select on GPIO0 (R524, R572). -/
def State.starterReads (s : State) (r : XReq) : Bool :=
  decide (s.boot = 0) && (match r.kind with
    | .fw _ _ _ => true
    | _ => false)

/-- A command alone, on the command lanes of `XWFMT` (R503). -/
def commandFmt (base : Word) (opc : Byte) (slot : BitVec 2) : Word :=
  opc ++ base.extractLsb' 22 2 ++ 0#4 ++ base.extractLsb' 17 1 ++ 0#9 ++ slot ++ 0#6

/-- A status poll: the command and 8 data bits, both on the command lanes of `XWFMT` (R504). -/
def statusFmt (base : Word) (opc : Byte) (slot : BitVec 2) : Word :=
  opc ++ base.extractLsb' 22 2 ++ 0#2 ++ base.extractLsb' 22 2 ++ base.extractLsb' 17 1 ++ 0#9 ++ slot
    ++ base.extractLsb' 17 1 ++ 0#5

/-- A program or an erase in the format of `XWFMT` with its `OPC`, `CSS` and `DIR` replaced; an erase of the whole device has
no address phase (R502, R503, R506). -/
def programFmt (base : Word) (opc : Byte) (slot : BitVec 2) (whole : Bool) : Word :=
  opc ++ base.extractLsb' 16 8 ++ (if whole then 0#2 else base.extractLsb' 14 2) ++ base.extractLsb' 8 6 ++ slot
    ++ base.extractLsb' 5 1 ++ 1#1 ++ 0#4

/-- The Starter's read format (R524). -/
def starterFmt (addr : Nat) : Word := if addr < 0x1000000 then 0x03004000 else 0x13008000

/-- What a request sends: format word, bytes written, bits of the data phase (R489, R495, R499, R500, R503, R504, R545). -/
def State.phasesOf (s : State) (r : XReq) : Word × List Byte × Nat :=
  let rd := s.wA 0 0x7101 0 &&& 0xffffffef
  let wf := s.wA 0 0x7201 0
  let op := s.wA 0 0x7200 0
  match r.kind with
  | .fetch _ n => (rd, [], 64 * n)
  | .fill => (rd, [], 256)
  | .wren o => (commandFmt wf (op.extractLsb' 24 8) o.slot, [], 0)
  | .prog o =>
    match o.erase with
    | none => (programFmt wf (op.extractLsb' 16 8) o.slot false, o.data, 8 * o.data.length)
    | some e => (programFmt wf e.1 o.slot (decide (e.2 = 3)), [], 0)
  | .poll c => (statusFmt wf (op.extractLsb' 8 8) c, [], 8)
  | .raw _ fmt boff xlen => (fmt, if fmt.getLsbD 4 then s.mem.xbytes boff ((xlen + 7) / 8) else [], xlen)
  | .fw _ _ n => (if s.xwen then rd else starterFmt r.addr, [], 8 * n)
  | .dead n => (rd, [], 8 * n)

/-- The transfer that a request starts; FW_FETCH without a window runs at the Starter's clock (R487, R490, R524, R545). -/
def State.frameOf (s : State) (r : XReq) : XFrame :=
  let q := s.phasesOf r
  let slow := match r.kind with
    | .fw _ _ _ => !s.xwen
    | _ => false
  { fmt := q.1, addr := r.addr, tx := q.2.1, bits := q.2.2, pin := if slow then 0 else s.csPin r.slot,
    div := if slow then 64 else fieldN (s.pA 0 0x7000 0) 24 8, sdly := fieldN (s.pA 0 0x7000 0) 0 4,
    cshi := fieldN (s.pA 0 0x7001 0) 16 4 }

/-- XCLK periods of a phase on lanes of a code (R488, R491). -/
def phaseClocks (bits code : Nat) (ddr : Bool) : Nat :=
  let per := 2 ^ code * (if ddr then 2 else 1)
  (bits + per - 1) / per

/-- Address bits of a format word (R488, R489). -/
def addrBits (fmt : Word) : Nat := if fieldN fmt.toNat 14 2 = 1 then 24 else if fieldN fmt.toNat 14 2 = 2 then 32 else 0

/-- Bytes of the command and address phases in the order in which they are sent (R488). -/
def XFrame.head (f : XFrame) : List Byte :=
  (if f.fmt.getLsbD 13 then [] else [f.fmt.extractLsb' 24 8])
    ++ ((List.range (addrBits f.fmt / 8)).reverse.map fun i => BitVec.ofNat 8 (f.addr / 256 ^ i))

/-- XCLK periods of a transfer without its holds (R488 to R491). -/
def XFrame.clocks (f : XFrame) : Nat :=
  let w := f.fmt.toNat
  (if f.fmt.getLsbD 13 then 0 else phaseClocks 8 (fieldN w 22 2) (f.fmt.getLsbD 17))
    + phaseClocks (addrBits f.fmt) (fieldN w 20 2) (f.fmt.getLsbD 16) + fieldN w 8 5
    + phaseClocks f.bits (fieldN w 18 2) (f.fmt.getLsbD 5)

/-- TRANSFER_START (R490, R497, R501, R570). -/
def State.transferStart (s : State) : State :=
  match (if s.mem.cur.isSome then none else s.mem.choose) with
  | none => s
  | some r =>
    let s1 := s.modMem fun m => { m with cur := some r, waiting := m.waiting.erase r }
    let s2 := s1.applyFrame
    let p := s2.csPin r.slot
    s2.modMem fun m =>
      { m with frame := some (s2.frameOf r), csHeld := if s2.starterReads r then 1 else if s2.pinFn p = 5 then 1#16 <<< p else 0 }

/-- TRANSFER_START. -/
def execTransferStart (s : State) : Host.Outcome State Fault Refusal := .next s.transferStart

/-! ## The end of a transfer (R490 to R498) -/

/-- Bytes of the data phase of a request (R553). -/
def XKind.bytes : XKind → Nat
  | .fetch _ n => 8 * n
  | .fill => 32
  | .wren _ => 0
  | .prog o => o.data.length
  | .poll _ => 1
  | .raw _ _ _ n => (n + 7) / 8
  | .fw _ _ n => n
  | .dead n => n

/-- The points in fetched bytes, each word little-endian (R202). -/
def pointsOf (rx : List Byte) (n : Nat) : List Point :=
  (List.range n).map fun i =>
    let b (k : Nat) : Byte := rx.getD (8 * i + k) 0
    pointOf (b 3 ++ b 2 ++ b 1 ++ b 0) (b 7 ++ b 6 ++ b 5 ++ b 4)

/-- A fetch of a stream is requested. -/
def MemPort.fetchWaits (m : MemPort) (n : AxisId) : Bool :=
  m.waiting.any fun r => match r.kind with
    | .fetch k _ => decide (k = n)
    | _ => false

/-- A fetch that was not discarded has ended (R203, R209). -/
def State.fetchEnd (n : AxisId) (k : Nat) (rx : List Byte) (s : State) : State :=
  let s1 := s.each (pointsOf rx k) fun p t =>
    let r := t.axes[n].str.putPoint 1024 p
    let t1 := t.modAxis n fun a => { a with str := r.1 }
    if r.2 = .badPoint then t1.raise (.stream n) 5 else t1
  let more := s1.mem.fetchWaits n
  s1.modAxis n fun a => { a with str := { a.str with feed := a.str.feed.map fun f =>
    { f with next := (f.next + 8 * k) % 4294967296, left := f.left - k, busy := more } } }

/-- A raw read into `XBUF`: the last byte keeps its top bits alone (R491, R495). -/
def MemPort.rawRead (boff xlen : Nat) (rx : List Byte) (m : MemPort) : MemPort :=
  let n := (xlen + 7) / 8
  let data := (List.range n).map fun i =>
    let b := rx.getD i 0
    if i + 1 = n ∧ xlen % 8 ≠ 0 then b &&& ~~~(BitVec.ofNat 8 (2 ^ (8 - xlen % 8) - 1)) else b
  { m with xbuf := putBytes boff data m.xbuf }

/-- An operation is ready or has timed out: polling of its slot stops. -/
def MemPort.release (slot : BitVec 2) (m : MemPort) : MemPort :=
  { m with busy := m.busy.set slot.toNat none,
           waiting := m.waiting.filter fun r => match r.kind with
             | .poll c => decide (c ≠ slot)
             | _ => true }

/-- Time of an operation in ms, saturated (R506). -/
def ProgOp.ms (o : ProgOp) : Nat := min 65535 (o.t / 20)

/-- An operation has been reported ready (R500, R504 to R506). -/
def State.opReady (o : ProgOp) (s : State) : State :=
  let s1 := s.modMem fun m => { m.release o.slot with polls := BitVec.ofNat 8 (min 255 o.polls),
                                                      lines := m.lines.filter fun l => !o.hitsLine l.1 }
  let s2 := match o.mb with
    | none => s1
    | some m =>
      match s1.mem.runs with
      | [] => s1
      | r :: l =>
        if r.mb ≠ m then s1
        else match o.erase with
          | some _ => (s1.modMem (MemPort.dropRun m)).endIf m .prog (State.done m [BitVec.ofNat 32 o.ms])
          | none =>
            let n := o.data.length
            if r.left ≤ n then (s1.modMem (MemPort.dropRun m)).endIf m .prog (State.done m [BitVec.ofNat 32 (r.done + n)])
            else s1.modMem fun x => { x with runs := { r with addr := r.addr + n, boff := r.boff + n, left := r.left - n,
                                                              done := r.done + n, active := false } :: l }
  s2.runsGo.serveReads

/-- An operation times out (R504 to R506). -/
def State.opTimeout (o : ProgOp) (s : State) : State :=
  let s1 := (s.modMem fun m => { m.release o.slot with polls := BitVec.ofNat 8 (min 255 o.polls),
                                                       xaddr := BitVec.ofNat 32 o.addr }).raise .memPort 0
  let s2 := match o.mb with
    | none => s1
    | some m => (s1.modMem (MemPort.dropRun m)).endIf m .prog (State.err m .timeout 0)
  s2.runsGo.serveReads

/-- A status poll has ended (R504). -/
def State.pollEnd (slot : BitVec 2) (rx : List Byte) (s : State) : State :=
  match s.mem.busy[slot.toNat] with
  | none => s
  | some o =>
    let o1 := { o with polls := o.polls + 1 }
    let cfg := s.pA 0 0x7200 0
    let bit := (rx.getD 0 0).getLsbD (fieldN cfg 0 3)
    if bit ≠ decide (fieldN cfg 3 1 = 1) then s.opReady o1
    else s.modMem fun m => { m with busy := m.busy.set slot.toNat (some o1) }

/-- Bytes read by FW_FETCH enter the slot that loads (R545). -/
def State.fwBytes (at_ : Nat) (rx : List Byte) (n : Nat) (s : State) : State :=
  let i := if s.nv.loading = some true then 1 else 0
  let data := (List.range n).map fun k => rx.getD k 0
  { s with nv := { s.nv with slots := s.nv.slots.mapFinIdx fun j (x : FwSlot) _ =>
      if j = i then { x with bytes := putBytes at_ data x.bytes } else x } }

/-- What the end of a transfer does for the request it served. -/
def State.serve (r : XReq) (rx : List Byte) (holds : Half) (verified : Bool) (s : State) : State :=
  match r.kind with
  | .fetch n k => s.fetchEnd n k rx
  | .fill => (s.modMem fun m => { m with lines := ((r.addr, (List.range 32).map fun i => rx.getD i 0) :: m.lines).take 16 }).serveReads
  | .wren o => s.xqueue (.prog o) o.addr o.slot
  | .prog o => s.modMem fun m => { m with busy := m.busy.set o.slot.toNat (some o) }
  | .poll slot => s.pollEnd slot rx
  | .raw m fmt boff xlen =>
    let s1 := s.modMem fun x => if fmt.getLsbD 4 then { x with lines := [] } else x.rawRead boff xlen rx
    s1.endIf m .xfer (State.done m [0#16 ++ holds])
  | .fw m at_ n =>
    if !s.waitsFor m .fetch then s
    else if verified then s.fwBytes at_ rx n
    else ((s.raise .nvStore 0).err m .nvfail 0).settle
  | .dead _ => s

/-- Declared length of the slot that loads. -/
def Nv.loadLen (v : Nv) : Nat := if v.loading = some true then v.slots[1].len else v.slots[0].len

/-- FW_FETCH goes on with its next transfer, or completes with the bytes copied (R545; log 38). -/
def State.fwFetchEnd (r : XReq) (s : State) : State :=
  match r.kind with
  | .fw m at_ n =>
    let next := at_ + n
    if !s.waitsFor m .fetch then s
    else if next < s.nv.loadLen then
      s.xqueue (.fw m next (min 512 (s.nv.loadLen - next))) ((r.addr + n) % 4294967296) r.slot
    else s.endIf m .fetch (State.done m [BitVec.ofNat 32 s.nv.loadLen])
  | _ => s

/-- TRANSFER_END (R490, R492, R495, R497). -/
def State.transferEnd (rx : List Byte) (holds : Half) (verified : Bool) (s : State) : State :=
  match s.mem.cur with
  | none => s
  | some r =>
    let s1 := s.modMem fun m => { m with cur := none, frame := none, csHeld := 0, xholds := m.xholds + holds.setWidth 32 }
    ((s1.countBytes 1 r.kind.bytes).serve r rx holds verified).fwFetchEnd r

/-- TRANSFER_END; `verified` that what the transfer of a FW_FETCH wrote to the MRAM reads back (R511). -/
def execTransferEnd (rx : List Byte) (holds : Half) (verified : Bool) (s : State) : Host.Outcome State Fault Refusal :=
  .next (s.transferEnd rx holds verified)

/-- STATUS_POLL (R504): a poll of every busy slot that has none under way is due. -/
def State.statusPoll (s : State) : State :=
  s.each [0, 1, 2, 3] fun (c : BitVec 2) t =>
    let out := (t.mem.cur.toList ++ t.mem.waiting).any fun r => decide (r.kind = .poll c)
    if t.mem.busy[c.toNat].isSome ∧ ¬ out then t.xqueue (.poll c) 0 c else t

/-- STATUS_POLL. -/
def execStatusPoll (s : State) : Host.Outcome State Fault Refusal := .next s.statusPoll

/-- Limit of an operation in units of 50 µs (R504). -/
def State.opLimit (s : State) (o : ProgOp) : Nat :=
  let t := s.pA 0 0x7202 0
  20 * (if o.erase.isSome then fieldN t 16 16 else fieldN t 8 8)

/-- OPERATION_TIMEOUT (R504): every operation that has run for its limit times out. -/
def execOperationTimeout (s : State) : Host.Outcome State Fault Refusal :=
  .next (s.each s.mem.busy.toList fun o t =>
    match o with
    | some p => if t.opLimit p ≤ p.t then t.opTimeout p else t
    | none => t)

/-! ## Commands (R494 to R496, R505, R506) -/

/-- Lanes of a phase code. -/
def lanesOf (code : Nat) : Nat := 2 ^ code

/-- MEM_XFER (R489, R491, R495). -/
def State.memXfer (m : MbId) (_ : Target) (s : State) : State :=
  let x := s.mbx[m]
  let fmt := x.pay 1
  let w := (x.pay 3).toNat
  let xlen := if fieldN w 0 15 = 0 then 32768 else fieldN w 0 15
  let boff := fieldN w 15 12
  if !formatOk (fieldN (s.pA 0 0x7000 0) 16 2) fmt.toNat then s.err m .range 1
  else if xlen % lanesOf (fieldN fmt.toNat 18 2) ≠ 0 ∨ boff % 4 ≠ 0 ∨ 4096 < boff + (xlen + 7) / 8 then s.err m .range 3
  else (s.xqueue (.raw m fmt boff xlen) (x.pay 2).toNat (BitVec.ofNat 2 (fieldN fmt.toNat 6 2))).wait m .xfer

/-- MEM_XFER. -/
def execMemXfer (m : MbId) (s : State) : Host.Outcome State Fault Refusal := .next (s.run m 2 0x300 (State.memXfer m))

/-- XBUF_PUT (R496). -/
def execXbufPut (m : MbId) (s : State) : Host.Outcome State Fault Refusal := .next (s.run m 2 0x301 (State.xbufCmd m))

/-- XBUF_GET (R496). -/
def execXbufGet (m : MbId) (s : State) : Host.Outcome State Fault Refusal := .next (s.run m 2 0x302 (State.xbufCmd m))

/-- A program or an erase starts as a run behind the others, after the write buffer (R505, R506). -/
def State.startRun (m : MbId) (r : ProgRun) (s : State) : State :=
  ((s.flushBuffer.modMem fun p => { p with runs := p.runs ++ [r] }).wait m .prog).runsGo

/-- MEM_PROG (R505). -/
def State.memProg (m : MbId) (_ : Target) (s : State) : State :=
  let x := s.mbx[m]
  let a := (x.pay 1).toNat
  let n := fieldN (x.pay 2).toNat 16 13
  let boff := fieldN (x.pay 2).toNat 0 12
  if !s.xwen then s.err m .state 0
  else if n = 0 ∨ 4096 < n ∨ 4096 < boff + n then s.err m .range 2
  else if !s.inWindow a n then s.err m .range 1
  else s.startRun m ⟨m, a, boff, n, 0, none, false⟩

/-- MEM_PROG. -/
def execMemProg (m : MbId) (s : State) : Host.Outcome State Fault Refusal := .next (s.run m 2 0x303 (State.memProg m))

/-- Bytes of an erase region; 0 for the whole device (R506). -/
def eraseSize (z : BitVec 2) : Nat := if z = 0 then 4096 else if z = 1 then 32768 else if z = 2 then 65536 else 0

/-- MEM_ERASE (R506). -/
def State.memErase (m : MbId) (_ : Target) (s : State) : State :=
  let x := s.mbx[m]
  let a := (x.pay 1).toNat
  let z := (x.pay 2).extractLsb' 0 2
  let n := eraseSize z
  if !s.xwen then s.err m .state 0
  else if z ≠ 3 ∧ (a % n ≠ 0 ∨ !s.inWindow a n) then s.err m .range 1
  else s.startRun m ⟨m, a, 0, 0, 0, some ((x.pay 2).extractLsb' 24 8, z), false⟩

/-- MEM_ERASE. -/
def execMemErase (m : MbId) (s : State) : Host.Outcome State Fault Refusal := .next (s.run m 2 0x304 (State.memErase m))

/-! ## Point fetches (R208, R209, R497) -/

/-- External address of the next point under the present window base (R209, R501). -/
def State.feedAddr (s : State) (f : Feed) : Nat := (f.next + 4294967296 + s.xwBase - f.base) % 4294967296

/-- Requests the fetch of a stream that is due, split where addresses pass 0xFFFF_FFFF (R209, R499). -/
def State.requestFetch (n : AxisId) (s : State) : State :=
  match s.axes[n].str.fetchDue (s.followCfg n).squota, s.axes[n].str.feed with
  | some k, some f =>
    let a := s.feedAddr f
    let k1 := min k ((4294967296 - a) / 8)
    let s1 := s.xqueue (.fetch n k1) a s.xwSlot
    let s2 := if k1 < k then s1.xqueue (.fetch n (k - k1)) 0 s.xwSlot else s1
    -- a fetch that touches the buffered page flushes it (R502)
    let touches := match s.mem.wpage with
      | some p => (List.range k).any fun i => decide ((a + 8 * i) % 4294967296 / s.xpage * s.xpage = p)
      | none => false
    (if touches then s2.flushBuffer else s2).modAxis n fun x =>
      { x with str := { x.str with feed := some { f with busy := true, retry := false } } }
  | _, _ => s

/-- STREAM_FETCH (R209). -/
def execStreamFetch (n : AxisId) (s : State) : Host.Outcome State Fault Refusal :=
  .next (if (s.axes[n].str.feed.map fun f => f.retry) = some true then s else s.requestFetch n)

/-- Drops the fetches of a stream: requests leave the queue, a running one brings no points (R157, R223). -/
def MemPort.dropFetch (n : AxisId) (m : MemPort) : MemPort :=
  let is (r : XReq) : Bool := match r.kind with
    | .fetch k _ => decide (k = n)
    | _ => false
  { m with waiting := m.waiting.filter fun r => !is r,
           cur := m.cur.map fun r => if is r then { r with kind := .dead r.kind.bytes } else r }

/-- FETCH_FAIL (R209, R497): the request leaves the queue and is tried again at later tick edges. -/
def execFetchFail (n : AxisId) (s : State) : Host.Outcome State Fault Refusal :=
  .next (if s.mem.fetchWaits n then
    let s1 := s.modMem fun m => { m with waiting := m.waiting.filter fun r => match r.kind with
      | .fetch k _ => decide (k ≠ n)
      | _ => true }
    (s1.modAxis n fun a => { a with str := { a.str with feed := a.str.feed.map fun f =>
      { f with busy := false, retry := true } } }).raise (.stream n) 6
  else s)

end Sys2Proof.Machine
end

