-- ==== Sys2Proof/Machine/MotionCmds.lean ====
section
/-! DEFINITION. The motion commands (06_motion_engine.md R171 to R177), HOME (09_load_angle_observer.md R291) and their
version 1 forms (04_mailboxes_and_ordering.md R134, R135). -/
namespace Sys2Proof.Machine

/-- Check 6 of a motion command (R174). -/
def State.motionErr (s : State) (n : AxisId) : Option ECode :=
  let v := s.banks[bankOf n].view
  let e := s.axes[n].eng
  if v = .unpowered ∨ v = .linking ∨ v = .orphan then some .nolink
  else if e.st = .off ∨ v = .service ∨ v = .safe then some .state
  else if (s.axisCfg n).mode ≠ 0 then some .state
  else if e.st = .stopping ∧ e.cause ≠ .command then some .state
  else none

/-- RSP1 of a motion command (R175): the tick edge at which it applies, or ARMED. -/
def State.applyWord (s : State) (armed : Bool) : Word :=
  if armed then 0x10000 else 0#16 ++ BitVec.ofNat 16 (s.tick + 1)

/-- A checked motion command lands: it cancels an armed move, and is armed or staged for the next tick edge (R175,
R176). -/
def Engine.land (armed : Bool) (c : Staged) (e : Engine) : Engine :=
  match armed, c with
  | true, .move m => { e with armed := some m }
  | _, c => { e with armed := none, staged := some c }

/-- Lands a motion command of an axis; an immediate one takes the place of a HOME that waits for the same edge. -/
def State.landMotion (n : AxisId) (armed : Bool) (c : Staged) (s : State) : State :=
  s.modAxis n fun a => { a with eng := a.eng.land armed c,
                                obn := if armed then a.obn else { a.obn with hpend := none } }

/-- Completes a motion command that lands (R175). -/
def State.doMotion (m : MbId) (n : AxisId) (armed : Bool) (c : Staged) (s : State) : State :=
  (s.landMotion n armed c).done m [s.applyWord armed]

/-- START of a payload word (R172): none for a code that is not defined. -/
def startOf (w : Word) : Option Bool :=
  let k := w.extractLsb' 28 4
  if k = 0 then some false else if k = 1 then some true else none

/-- Payload word k as an override; an absent word reads 0 (R172). -/
def Mailbox.ovr (x : Mailbox) (k : Nat) : Nat := if k ≤ x.count then (x.pay k).toNat else 0

/-- Payload word k; a word beyond the payload count reads 0. -/
def Mailbox.arg (x : Mailbox) (k : Nat) : Word := if k ≤ x.count then x.pay k else 0

/-- Position carried in two payload words (R172). -/
def Mailbox.posArg (x : Mailbox) : Int := ((x.pay 2).extractLsb' 0 16 ++ x.pay 1 : BitVec 48).toInt

/-- Runs a motion command of an axis target: its own checks answer a command, or an error. -/
def State.motion (m : MbId) (f : AxisId → State → Except (ECode × Nat) (Bool × Staged)) (t : Target) (s : State) : State :=
  match t with
  | .axis n =>
    match s.motionErr n with
    | some e => s.err m e 0
    | none => match f n s with
      | .error e => s.err m e.1 e.2
      | .ok q => s.doMotion m n q.1 q.2
  | _ => s.err m .target 0

/-- A target move whose START stands in payload word 2 (R172). -/
def Mailbox.targetMove (x : Mailbox) (p : Int) : Except (ECode × Nat) (Bool × Staged) :=
  match startOf (x.pay 2) with
  | none => .error (.range, 2)
  | some armed => .ok (armed, .move ⟨.target p, ⟨x.ovr 3, x.ovr 4, x.ovr 5, x.ovr 6⟩⟩)

/-- MOVE_TO (R172). -/
def execMoveTo (m : MbId) (s : State) : Host.Outcome State Fault Refusal :=
  .next (s.run m 2 0x040 (State.motion m fun _ t => t.mbx[m].targetMove t.mbx[m].posArg))

/-- Base of MOVE_BY (R173): the target in force in a target move or at rest after one, else the position. -/
def Engine.byBase (e : Engine) : Int :=
  match e.move with
  | some ⟨.target _, _⟩ => if e.st = .ramp ∨ e.st = .standby then e.target else e.ipos
  | _ => e.ipos

/-- A position within the 48-bit range (R158). -/
def inRange (p : Int) : Bool := decide (-140737488355328 ≤ p ∧ p ≤ 140737488355327)

/-- MOVE_BY (R172, R173). -/
def execMoveBy (m : MbId) (s : State) : Host.Outcome State Fault Refusal :=
  .next (s.run m 2 0x041 (State.motion m fun n t =>
    let p := t.axes[n].eng.byBase + (t.mbx[m].pay 1).toInt
    match t.mbx[m].targetMove p with
    | .error e => .error e
    | .ok q => if inRange p then .ok q else .error (.range, 1)))

/-- VELOCITY (R172, R173); the field of R158 has no −2^31. -/
def execVelocity (m : MbId) (s : State) : Host.Outcome State Fault Refusal :=
  .next (s.run m 2 0x042 (State.motion m fun _ t =>
    let x := t.mbx[m]
    match startOf (x.arg 2) with
    | none => .error (.range, 2)
    | some armed =>
      if x.pay 1 = 0x80000000 then .error (.range, 1)
      else .ok (armed, .move ⟨.velocity (x.pay 1).toInt, ⟨0, x.ovr 3, x.ovr 4, x.ovr 5⟩⟩)))

/-- STOP lands in every state (R174, R176). -/
def State.stopCmd (m : MbId) (quick : Bool) (t : Target) (s : State) : State :=
  match t with
  | .axis n => s.doMotion m n false (.stop quick)
  | _ => s.err m .target 0

/-- STOP (R172, R174). -/
def execStop (m : MbId) (s : State) : Host.Outcome State Fault Refusal :=
  .next (s.run m 2 0x043 fun t u => u.stopCmd m ((u.mbx[m].arg 1).getLsbD 0) t)

/-- SET_POSITION (R177). -/
def State.setPosition (m : MbId) (t : Target) (s : State) : State :=
  match t with
  | .axis n =>
    let e := s.axes[n].eng
    let p := s.mbx[m].posArg
    if e.st = .off ∨ (e.st = .standby ∧ e.armed = none) then
      if e.redefOk p then
        (s.modAxis n fun a => { a with eng := { a.eng with setPos := some p } }).done m [s.applyWord false]
      else s.err m .range 1
    else s.err m .state 0
  | _ => s.err m .target 0

/-- SET_POSITION (R172, R177). -/
def execSetPosition (m : MbId) (s : State) : Host.Outcome State Fault Refusal :=
  .next (s.run m 2 0x044 (State.setPosition m))

/-- Whether HOME is refused beyond R174 (R291): the observer could not see a stall at HVEL. -/
def State.homeBlind (s : State) (n : AxisId) : Bool :=
  decide (fieldN (s.pA n.val 0x3500 0) 3 1 = 0) &&
    decide ((sgn (s.pA n.val 0x3600 0)).natAbs < s.pA n.val 0x3501 0 * 64)

/-- HOME (R291, R292): a velocity move at HVEL that waits for the next tick edge. -/
def State.homeCmd (m : MbId) (t : Target) (s : State) : State :=
  match t with
  | .axis n =>
    match s.motionErr n with
    | some e => s.err m e 0
    | none =>
      if s.axes[n].eng.st ≠ .standby ∨ s.homeBlind n then s.err m .state 0
      else
        let mv : Move := ⟨.velocity (sgn (s.pA n.val 0x3600 0)), ⟨0, 0, 0, 0⟩⟩
        let s1 := s.landMotion n false (.move mv)
        let probe := (s.mbx[m].arg 1).getLsbD 0
        (s1.modAxis n fun a => { a with obn := { a.obn with hpend := some probe } }).done m [s.applyWord false]
  | _ => s.err m .target 0

/-- HOME (R291). -/
def execHome (m : MbId) (s : State) : Host.Outcome State Fault Refusal := .next (s.run m 2 0x100 (State.homeCmd m))

/-- S_MOVE (R134, R135). -/
def execSMove (m : MbId) (s : State) : Host.Outcome State Fault Refusal :=
  .next (s.run m 1 0x010 (State.motion m fun _ t =>
    .ok (false, .move ⟨.target (t.mbx[m].pay 1).toInt, ⟨0, 0, 0, 0⟩⟩)))

/-- S_VELOCITY (R134, R135). -/
def execSVelocity (m : MbId) (s : State) : Host.Outcome State Fault Refusal :=
  .next (s.run m 1 0x011 (State.motion m fun _ t =>
    let v := (t.mbx[m].pay 1).toInt
    if v < -33554431 ∨ 33554431 < v then .error (.range, 1)
    else .ok (false, .move ⟨.velocity (v * 64), ⟨0, 0, 0, 0⟩⟩)))

/-- S_STOP (R134). -/
def execSStop (m : MbId) (s : State) : Host.Outcome State Fault Refusal :=
  .next (s.run m 1 0x012 fun t u => u.stopCmd m false t)

end Sys2Proof.Machine
end

