-- ==== Sys2Proof/Machine/StreamCmds.lean ====
section
/-! DEFINITION. The stream commands (05_command_set.md R156, R157, 07_followers_and_streams.md R221 to R224) and the step
input (R199, R200). -/
namespace Sys2Proof.Machine

/-- A stream is not open, plays out or brakes after a play-out (R128, R157). -/
def Stream.engaged (t : Stream) : Bool := t.st.isSome || t.playOut

/-- A stream just opened (R211). A brake of its source that still runs goes on, until a start edge ends it (R212,
R213). -/
def Stream.opened (w : Option WinId) (f : Option Feed) (t : Stream) : Stream :=
  { st := some .open_, window := w, feed := f, brake := t.brake }

/-- STREAM_OPEN of a stream (R128, R156, R208). -/
def State.openStream (m : MbId) (n : AxisId) (s : State) : State :=
  let x := s.mbx[m]
  let src := (x.pay 1).extractLsb' 28 4
  let w : WinId := Fin.ofNat 16 ((x.pay 1).extractLsb' 0 4).toNat
  let word (win : BitVec 4) : Word := src ++ 0#15 ++ BitVec.ofNat 5 (n.val % 24) ++ 0#4 ++ win
  let a := (x.pay 2).toNat
  let k := (x.pay 3).toNat
  if 1 < src.toNat then s.err m .range 1
  else if x.count ≠ (if src = 0 then 1 else 3) then s.err m .length 0
  else if src = 0 then
    if (s.windowStream w).isSome ∨ s.axes[n].str.engaged then s.err m .inuse 1
    else (s.modAxis n fun ax => { ax with str := ax.str.opened (some w) none }).done m [word ((x.pay 1).extractLsb' 0 4)]
  else if !s.xwen then s.err m .state 0
  else if k = 0 then s.err m .range 3
  else if a % 8 ≠ 0 then s.err m .range 2
  else if !s.inWindow a (8 * k) then s.err m .range (if s.inWindow a 8 then 3 else 2)
  else if s.axes[n].str.engaged then s.err m .inuse 1
  else
    (s.modAxis n fun ax => { ax with str := ax.str.opened none (some ⟨a, k, a, k, s.xwBase, false, false⟩) }).done m
      [word ((x.pay 1).extractLsb' 0 4)]

/-- STREAM_OPEN. -/
def execStreamOpen (m : MbId) (s : State) : Host.Outcome State Fault Refusal :=
  .next (s.run m 2 0x00b fun t u => match t with
    | .stream n => u.openStream m n
    | _ => u.err m .target 0)

/-- Words with a count in [15:0]. -/
def countWord (n : Nat) : Word := 0#16 ++ BitVec.ofNat 16 n

/-- STREAM_CLOSE (R129, R157). -/
def State.closeStream (m : MbId) (n : AxisId) (s : State) : State :=
  if s.axes[n].str.st = none then s.err m .notopen 0
  else
    let s1 := (s.modMem (MemPort.dropFetch n)).modAxis n fun a => { a with str := a.str.close }
    s1.done m [countWord s1.axes[n].str.fifo.length]

/-- STREAM_CLOSE. -/
def execStreamClose (m : MbId) (s : State) : Host.Outcome State Fault Refusal :=
  .next (s.run m 2 0x00c fun t u => match t with
    | .stream n => u.closeStream m n
    | _ => u.err m .target 0)

/-- Whether a stream may start (R214). -/
def State.startOk (s : State) (n : AxisId) : Bool :=
  let t := s.axes[n].str
  t.st.isSome && decide (t.st ≠ some .pending) && decide (t.st ≠ some .run)
    && decide (s.axes[n].eng.st = .follow) && decide ((s.axisCfg n).mode = 2) && t.primed (s.followCfg n).sprime

/-- Start tick of a timing word, none where it is refused (R222). -/
def State.startTick (s : State) (timing : Word) : Option Nat :=
  let k := timing.extractLsb' 28 4
  let first := (s.tick + 1) % 65536
  let at_ := (timing.extractLsb' 0 16).toNat
  if k = 0 then some first
  else if k = 1 then
    let d := (at_ + 65536 - first) % 65536
    if 2 ≤ d ∧ d ≤ 32767 then some at_ else none
  else none

/-- Starts the streams of a list together, as a new start group (R211, R214). -/
def State.startStreams (m : MbId) (l : List AxisId) (timing : Word) (detail : Nat) (s : State) : State :=
  if l.any fun n => !s.startOk n then s.err m .state 1
  else match s.startTick timing with
    | none => s.err m .range detail
    | some k =>
      let g := s.groupSeq + 1
      let s1 := s.each l fun n t => t.modAxis n fun a => { a with str := { a.str with
        st := some .pending, group := g, startAt := k, groupDue := false,
        played := if a.str.st = some .open_ then 0 else a.str.played } }
      { s1 with groupSeq := g }.done m [countWord k]

/-- STREAM_START (R214, R222). -/
def State.streamStart (m : MbId) (t : Target) (s : State) : State :=
  let x := s.mbx[m]
  match t with
  | .stream n => s.startStreams m [n] (x.arg 1) 1
  | _ =>
    let da := if s.carries m then 24 else 0
    let l := ((List.range 24).filter fun k => (x.pay 1).getLsbD k).map fun k => (Fin.ofNat 48 (k + da) : AxisId)
    if l = [] then s.err m .range 1
    else if l.any fun n => !s.axisPresent n then s.err m .absent 1
    else s.startStreams m l (x.arg 2) 2

/-- STREAM_START. -/
def execStreamStart (m : MbId) (s : State) : Host.Outcome State Fault Refusal := .next (s.run m 2 0x080 (State.streamStart m))

/-- STREAM_FLUSH (R223). -/
def State.flushStream (m : MbId) (n : AxisId) (s : State) : State :=
  let t := s.axes[n].str
  if t.st = none then s.err m .notopen 0
  else if t.st = some .run ∨ t.st = some .pending then s.err m .state 0
  else ((s.modMem (MemPort.dropFetch n)).modAxis n fun a => { a with str := a.str.flush }).done m [countWord t.fifo.length]

/-- STREAM_FLUSH. -/
def execStreamFlush (m : MbId) (s : State) : Host.Outcome State Fault Refusal :=
  .next (s.run m 2 0x081 fun t u => match t with
    | .stream n => u.flushStream m n
    | _ => u.err m .target 0)

/-- Clears bits of `SFLT` and acknowledges every class that no set bit holds any more (R224, R470). -/
def FBlock.streamAck (m : Word) (f : FBlock) : FBlock :=
  let g := f.clear (m &&& 0xff)
  g.ack g.freeClasses

/-- STREAM_ACK (R224, R470). -/
def execStreamAck (m : MbId) (s : State) : Host.Outcome State Fault Refusal :=
  .next (s.run m 2 0x082 fun t u => match t with
    | .stream n => (u.modBlock (.stream n) (FBlock.streamAck (u.mbx[m].pay 1))).done m []
    | _ => u.err m .target 0)

/-- STEP_EDGE (R199, R200): a filtered edge of STEPn with the level of DIRn; `fast` that two active edges lie less than
200 ns apart. The pins of a carried axis belong to its node (R541). -/
def State.stepEdge (n : AxisId) (rising dirHigh fast : Bool) (s : State) : State :=
  let c := s.followCfg n
  if n.val < 24 ∧ s.axisPresent n ∧ activeEdge c.edgeSel rising then
    let following := decide ((s.axisCfg n).mode = 1)
    (s.modAxis n fun a => { a with fol := a.fol.step c following dirHigh }).raiseIf fast (.stream n) 1
  else s

/-- STEP_EDGE. -/
def execStepEdge (n : AxisId) (rising dirHigh fast : Bool) (s : State) : Host.Outcome State Fault Refusal :=
  .next (s.stepEdge n rising dirHigh fast)

end Sys2Proof.Machine
end

