-- ==== Sys2Proof/Machine/Power.lean ====
section
/-! DEFINITION. Node reset, power, reference, debug halt, and the reactions that wait: block reset, node reset, NMI and the
minimum of nERR (01_node_and_banks.md R43, 02_host_link.md R78 to R81, 04_mailboxes_and_ordering.md R120, R122,
14_mains_bus_and_energy.md R438, 16_faults.md R472 to R480). -/
namespace Sys2Proof.Machine

/-! ## Node reset (R80, R122, R475, R477, R482) -/

/-- The node's side of a bank after a node reset: no request stands, the mirror and the queue are empty; the bank's side
runs on, with what it still has to tell. -/
def Bank.nodeReset (k : Bank) : Bank :=
  { k with view := .unpowered, left := false, crcup := 0, lost := false, miss := false, badUp := 0, noUp := 0,
           seen := false, ops := [], dpkt := none, upkt := none, mir := {}, batches := [],
           softReq := false, renewed := false, svcReq := 0, sentBatch := none, sentSvc := none, sentSoft := none, resumeDue := false,
           resumeAt := 0, queue := {}, scanPos := 0, harmDue := 0, lastUp := 0, gone := false, undelivered := true, missed := 0, reinit := true,
           svcRun := 0,
           events := (match k.upkt with | some u => u.events | none => []) ++ k.events }

/-- An axis after a node reset: the bank's side stays. -/
def Axis.nodeReset (a : Axis) : Axis := { loopA := a.loopA, loopB := a.loopB, obs := a.obs, legs := a.legs }

/-- What of the NV store lies in the MRAM and the fuse, and so outlives a node reset (R510, R522, R543). -/
def Nv.nodeReset (v : Nv) : Nv :=
  { sets := v.abandonStores.sets, active := v.active, slots := v.slots, trial := v.trial, trialTo := v.trialTo, minroll := v.minroll,
    bootsrc := v.bootsrc, extaddr := v.extaddr, fuse := v.fuse, ring := v.ring, ringSeqNo := v.ringSeqNo, rhead := v.rhead }

/-- The class 4 latch outlives a node reset, with nERR; nERR stays asserted through a node-reset reaction, whose minimum
time starts again at its end (R475, R477). -/
def FaultNode.afterReset (reaction : Bool) (f : FaultNode) : FaultNode :=
  { class4 := f.class4, nerrOn := f.class4 || (reaction && f.nerrOn), minRun := reaction && f.nerrOn }

/-- Pins of a channel stay as they are (R396). -/
def FbChan.nodeReset (f : FbChan) : FbChan := { a := f.a, b := f.b, z := f.z }

/-- The power entry at a node reset (R80, R421, R422, R431, R443): both accounts are full, the updates count anew, and the
measurements wait for the next; the PFC stage runs on as it is. -/
def Entry.nodeReset (part : Part) (e : Entry) : Entry :=
  { e with vmains := 0, vbus := 0, pin := 0, pbud := part.budgets.2, dacc := 400, ovacc := 1000, inlim := false, halves := [],
           cands := [], freqAt := none, drew := e.disch }

/-- A node reset: every register of the node returns to its reset value. The PFC stage, keep domain, MRAM, link switches,
pin levels and the banks' own sides are outside it (R80, R48, R507, R542). -/
def State.nodeReset (cmpt reaction : Bool) (s : State) : State :=
  { part := s.part, isN1 := s.isN1, pending := s.pending, free := s.free,
    link := { cmptpin := cmpt, sframe := cmpt, sframeF := cmpt },
    blocks := blocksInit s.part, fn := s.fn.afterReset reaction, bankP := s.bankP,
    axes := s.axes.map Axis.nodeReset, banks := s.banks.map Bank.nodeReset,
    entry := s.entry.nodeReset s.part, keep := s.keep, units := s.units, powered := s.powered, refOk := s.refOk, nstopLow := s.nstopLow,
    nfltLow := s.nfltLow, enPins := s.enPins, fbs := s.fbs.map FbChan.nodeReset, nv := s.nv.nodeReset,
    pair := { carry := s.pair.carry, tbanks := s.pair.tbanks }, gpio := { lvl := s.gpio.lvl } }

/-- NRST_PULSE (R80): a pulse that resets; `cmpt` the level of CMPT as nRST rises (R78). -/
def execNrstPulse (cmpt : Bool) (s : State) : Host.Outcome State Fault Refusal :=
  .next (if s.powered then s.nodeReset cmpt false else s)

/-- NODE_POWER_LOSS (R438, R563): both supplies are gone; the class 4 latch is cleared, the PFC stage and the chopper are
off. -/
def State.powerLoss (s : State) : State :=
  if s.powered ∧ s.entry.vauxok = false ∧ s.entry.supplyUp = false then
    let s1 := s.nodeReset false false
    { s1 with powered := false, fn := {}, entry := { s1.entry with chopon := false, pfcOn := false, pfcOv := false } }
  else s

/-- NODE_POWER_LOSS. -/
def execNodePowerLoss (s : State) : Host.Outcome State Fault Refusal := .next s.powerLoss

/-- POWER_ON_RESET_END (R78, R438): the node logic has its supply again, and its safe-state channels are active
(R327). -/
def State.powerOn (cmpt : Bool) (s : State) : State :=
  if s.powered then s
  else
    let s1 := { (s.nodeReset cmpt false).clockGap with powered := true }
    s1.each s1.presentBanks State.channelOn

/-- POWER_ON_RESET_END. -/
def execPowerOnResetEnd (cmpt : Bool) (s : State) : Host.Outcome State Fault Refusal := .next (s.powerOn cmpt)

/-- NODE_RESET_REACTION (R475): a reset that is due; class 4 carries out none (R477). CMPT is not sampled: `SFRAME` takes
`CMPTPIN` as the last rise of nRST or power-on reset left it (R78). -/
def State.nodeResetDue (s : State) : State :=
  if s.fn.nodeReset ∧ ¬ s.fn.class4 then s.nodeReset s.link.cmptpin true else s

/-- NODE_RESET_REACTION. CMPT may stand at any level: it is sampled at the rise of nRST and at the end of a power-on
reset, and at no other time (R78). -/
def execNodeResetReaction (_cmpt : Bool) (s : State) : Host.Outcome State Fault Refusal := .next s.nodeResetDue

/-! ## The reference (R43) -/

/-- REFERENCE_LOSS (R43): REFLOSS, whose node reset is fixed whatever its code. -/
def State.referenceLoss (s : State) : State :=
  if s.refOk then
    let s1 := { s with refOk := false }
    if s.powered then
      let s2 := s1.raise .node 0
      { s2 with fn := { s2.fn with nodeReset := true } }.nodeResetDue
    else s1
  else s

/-- REFERENCE_LOSS. CMPT is not sampled, whatever its level (R78). -/
def execReferenceLoss (_cmpt : Bool) (s : State) : Host.Outcome State Fault Refusal := .next s.referenceLoss

/-- REFERENCE_RETURN (R43): the reference has been present for 10 ms. -/
def execReferenceReturn (s : State) : Host.Outcome State Fault Refusal :=
  .next (if s.refOk then s else { s.clockGap with refOk := true })

/-! ## Debug halt (R120, R324, R326, R330, R476) -/

/-- DEBUG_HALT: the processor halts; BRAKE on every bank that the node drives; commands rung and not taken complete
BUSY. A blown fuse closes the port (R543). -/
def State.debugHalt (s : State) : State :=
  if s.powered ∧ s.boot = 1 ∧ s.nv.fuse = false then
    let s1 := { s with boot := 3, haltC4 := false }
    let s2 := s1.each allMbs fun m t => if t.mbx[m].rung then t.err m .busy 0 else t
    s2.each s2.presentBanks fun b t => t.inputSafe b 8 2
  else s

/-- DEBUG_HALT. -/
def execDebugHalt (s : State) : Host.Outcome State Fault Refusal := .next s.debugHalt

/-- The processor runs on: a held NMI is taken, commands that ended meanwhile complete, and others proceed (R120, R476). -/
def State.processorRuns (s : State) : State :=
  let f := s.fn
  ({ s with boot := 1, fn := { f with nmiDue := f.nmiDue || f.nmiHeld, nmiHeld := false } }.each allMbs State.release).settle

/-- DEBUG_RESUME. -/
def execDebugResume (s : State) : Host.Outcome State Fault Refusal :=
  .next (if s.debugHalted then (s.processorRuns).causeGone 8 else s)

/-! ## Reactions (R472 to R476, R480) -/

/-- Preparation of a block before its reset (R474). -/
def State.prepareReset (i : BlockId) (s : State) : State :=
  let off (n : AxisId) : State :=
    s.modAxis n fun a => { a with eng := { a.eng.toOff with venNext := false, offReq := false } }
  match i with
  | .axis n => off n
  | .phase n _ => off n
  | .stream n => (s.modMem (MemPort.dropFetch n)).modAxis n fun a => { a with str := if a.str.st.isSome then a.str.close else a.str }
  | .bank b => s.requestSoft b
  | _ => s

/-- One block-reset reaction; a RESET_BLOCK that waits for the same block is the same reset (R474). -/
def State.blockReset (i : BlockId) (s : State) : State :=
  let s1 := s.prepareReset i
  let t := i.target
  match (s1.waiters fun w => w = .resetPend).find? fun m => s1.target? m = some t with
  | some m =>
    match t.resetOp with
    | some (b, _) =>
      if s1.linked b then (s1.resetTarget t (some m)).wait m (.bank b []) else (s1.resetTarget t none).done m []
    | none => (s1.resetTarget t none).done m []
  | none => s1.resetTarget t none

/-- BLOCK_RESET_REACTION (R474): every block whose reaction is due; none under class 4 (R477). -/
def State.blockResets (s : State) : State :=
  let l := s.fn.blockResets
  let s1 := { s with fn := { s.fn with blockResets := [] } }
  if s.fn.class4 then s1 else (s1.each l State.blockReset).settle

/-- BLOCK_RESET_REACTION. -/
def execBlockResetReaction (s : State) : Host.Outcome State Fault Refusal := .next s.blockResets

/-- NMI_ENTRY (R476): the firmware's handler takes the NMI and returns; while the processor does not run it is held,
in the Starter it is discarded; under class 4 it is not carried out (R477). -/
def State.nmiEntry (s : State) : State :=
  if s.fn.nmiDue then
    let held := decide (s.boot = 2) || s.debugHalted
    { s with fn := { s.fn with nmiDue := false, nmiHeld := s.fn.nmiHeld || held } }
  else s

/-- NMI_ENTRY. -/
def execNmiEntry (s : State) : Host.Outcome State Fault Refusal := .next s.nmiEntry

/-- The minimum time of nERR ends; a release that waits takes effect (R480). -/
def FaultNode.minExpire (f : FaultNode) : FaultNode :=
  if f.minRun = false then f
  else if f.relPend ∧ f.class4 = false then { f with minRun := false, nerrOn := false, relPend := false }
  else { f with minRun := false }

/-- `NERRMIN` (R479). -/
def State.nerrMin (s : State) : Nat := s.pA 0 0x1200 0

/-- NERR_MIN_EXPIRE (R480): `NERRMIN` ms since the last raise have passed before the tick ends. -/
def execNerrMinExpire (s : State) : Host.Outcome State Fault Refusal :=
  .next (if s.fn.minT + s.units < 20 * s.nerrMin then s else { s with fn := s.fn.minExpire })

end Sys2Proof.Machine
end

