-- ==== Sys2Proof/Machine/Image.lean ====
section
/-! DEFINITION. Bapra images: the layout of their header, the checks of R521 and the SHA-256 that `BODYHASH` names
(18_store_update_service.md R520, R521). -/
namespace Sys2Proof.Machine

/-! ## SHA-256 (PRESUMED: the standard of that name, which R520 only names; log 82) -/

/-- The first 64 primes. -/
def first64Primes : List Nat := [
  2, 3, 5, 7, 11, 13, 17, 19, 23, 29, 31, 37, 41, 43, 47, 53, 59, 61, 67, 71, 73, 79, 83, 89, 97, 101, 103, 107, 109, 113,
  127, 131, 137, 139, 149, 151, 157, 163, 167, 173, 179, 181, 191, 193, 197, 199, 211, 223, 227, 229, 233, 239, 241, 251,
  257, 263, 269, 271, 277, 281, 283, 293, 307, 311]

/-- The largest number of `bits` bits above `r` whose k-th power is at most n: its k-th root, bit by bit. -/
def rootBits (k n : Nat) : Nat → Nat → Nat
  | 0, r => r
  | bits + 1, r => rootBits k n bits (if (r + 2 ^ bits) ^ k ≤ n then r + 2 ^ bits else r)

/-- The first 32 fraction bits of the k-th root of p. -/
def rootFraction (k p : Nat) : Word := BitVec.ofNat 32 (rootBits k (p * 2 ^ (32 * k)) 37 0)

/-- What each of the 64 rounds adds. -/
def roundConstants : List Word := first64Primes.map (rootFraction 3)

/-- The digest before the first block: eight words in one vector, the first on top. -/
def digestStart : BitVec 256 := (first64Primes.take 8).foldl (fun d p => d <<< 32 ||| (rootFraction 2 p).setWidth 256) 0

/-- Three rotations of a word, added without carry. -/
def mixRotations (i j k : Nat) (x : Word) : Word := x.rotateRight i ^^^ x.rotateRight j ^^^ x.rotateRight k

/-- Two rotations and a shift of a word, added without carry. -/
def mixShift (i j k : Nat) (x : Word) : Word := x.rotateRight i ^^^ x.rotateRight j ^^^ x.ushiftRight k

/-- Word i of a digest, 0 on top. -/
def digestWord (d : BitVec 256) (i : Nat) : Word := d.extractLsb' (224 - 32 * i) 32

/-- One round on the digest `st.1` and the next 16 schedule words `st.2`, oldest first. -/
def digestRound (st : BitVec 256 × List Word) (k : Word) : BitVec 256 × List Word :=
  let v := digestWord st.1
  let w (i : Nat) : Word := st.2.getD i 0
  let choice : Word := v 4 &&& v 5 ||| ~~~v 4 &&& v 6
  let major : Word := v 0 &&& (v 1 ||| v 2) ||| v 1 &&& v 2
  let x := v 7 + mixRotations 6 11 25 (v 4) + choice + k + w 0
  ((x + mixRotations 2 13 22 (v 0) + major) ++ st.1.extractLsb' 160 96 ++ (v 3 + x) ++ st.1.extractLsb' 32 96,
   st.2.tail ++ [w 0 + mixShift 7 18 3 (w 1) + w 9 + mixShift 17 19 10 (w 14)])

/-- A block of 16 words added to the digest. -/
def digestBlock (d : BitVec 256) (block : List Word) : BitVec 256 :=
  let e := (roundConstants.foldl digestRound (d, block)).1
  (List.range 8).foldl (fun x i => x <<< 32 ||| (digestWord d i + digestWord e i).setWidth 256) 0

/-- Groups of n elements, fuel rounds at most. -/
def groupsOf {α : Type} (n : Nat) : Nat → List α → List (List α)
  | 0, _ => []
  | fuel + 1, l => if l.isEmpty then [] else l.take n :: groupsOf n fuel (l.drop n)

/-- Big-endian number of a list of bytes. -/
def beNat (l : List Byte) : Nat := l.foldl (fun a b => 256 * a + b.toNat) 0

/-- SHA-256 of a list of bytes: a 1 bit, zeros up to 8 bytes short of a block, and the length in bits follow it. -/
def sha256 (l : List Byte) : BitVec 256 :=
  let pad := l ++ 0x80 :: (List.replicate ((119 - l.length % 64) % 64) 0 ++ (bytesOf 8 (8 * l.length)).reverse)
  (groupsOf 64 pad.length pad).foldl (fun d b => digestBlock d ((groupsOf 4 16 b).map fun g => BitVec.ofNat 32 (beNat g)))
    digestStart

/-! ## Images in a slot (R520, R521) -/

/-- Bytes of a slot. -/
def FwSlot.span (x : FwSlot) (at_ n : Nat) : List Byte := (List.range n).map fun i => getByte x.bytes (at_ + i)

/-- Little-endian field of a slot. -/
def FwSlot.field (x : FwSlot) (at_ n : Nat) : Nat := beNat (x.span at_ n).reverse

/-- `BODYLEN`. -/
def FwSlot.bodyLen (x : FwSlot) : Nat := x.field 8 4

/-- `VERSION`. -/
def FwSlot.version (x : FwSlot) : Word := BitVec.ofNat 32 (x.field 12 4)

/-- `ROLLBACK`. -/
def FwSlot.rollback (x : FwSlot) : Byte := getByte x.bytes 16

/-- `KEYIDX`. -/
def FwSlot.keyIdx (x : FwSlot) : Byte := getByte x.bytes 17

/-- `BODYHASH`. -/
def FwSlot.bodyHash (x : FwSlot) : BitVec 256 := BitVec.ofNat 256 (beNat (x.span 64 32))

/-- Check 1: magic, format, kind and reserved bytes. -/
def FwSlot.shapeOk (x : FwSlot) : Bool :=
  decide (x.field 0 4 = 0x52504142) && decide (x.field 4 2 = 1) && decide (x.field 6 2 = 1)
    && (x.span 18 6 ++ x.span 28 36 ++ x.span 96 32).all fun b => decide (b = 0)

/-- Check 2: the body's length is in range and fits the declared length. -/
def FwSlot.lenOk (x : FwSlot) : Bool :=
  let n := x.bodyLen
  decide (8 ≤ n ∧ n ≤ 163648 ∧ n % 8 = 0 ∧ 192 + n ≤ x.len)

/-- The first check of R521 that fails, 0 where the image verifies; `sigOk` that its signature verifies with its key. -/
def FwSlot.check (minroll : Byte) (sigOk : Bool) (x : FwSlot) : BitVec 4 :=
  if !x.shapeOk then 1
  else if !x.lenOk then 2
  else if 4 ≤ x.keyIdx.toNat then 3
  else if x.rollback.toNat < minroll.toNat then 4
  else if sha256 (x.span 192 x.bodyLen) ≠ x.bodyHash then 5
  else if !sigOk then 6
  else 0

end Sys2Proof.Machine
end

