-- ==== Sys2Proof/Machine/Firmware.lean ====
section
/-! DEFINITION. The Starter, firmware start, configuration sets, the position log ring, loading and swapping firmware
(18_store_update_service.md R510 to R529, R543 to R546). -/
namespace Sys2Proof.Machine

/-- Changes the store. -/
def State.modNv (f : Nv → Nv) (s : State) : State := { s with nv := f s.nv }

/-! ## Configuration sets (R512 to R515) -/

/-- A valid set: not blank, both CRCs match (R512). -/
def ConfigSet.valid (c : ConfigSet) : Bool := !c.blank && c.ok

/-- The valid set with the higher `SSEQ`, with its number (R515). -/
def Nv.best (v : Nv) : Option (Bool × ConfigSet) :=
  let a := v.sets[0]
  let b := v.sets[1]
  if a.valid ∧ b.valid then (if a.seq.toNat < b.seq.toNat then some (true, b) else some (false, a))
  else if a.valid then some (false, a)
  else if b.valid then some (true, b)
  else none

/-- A stored Proof: state word 0, reference word 1 (R513, R515). -/
def Proof.load (w : Nat) (v : Word) (p : Proof) : Proof :=
  if w = 0 then { p with state := if v = 0 then .open_ else .loaded }
  else if p.state = .open_ then p else { p with ref := v }

/-- One record reaches the node's copies: `key` is its key with the unit it has on this node (R513, R515); `load` that
Proofs take their stored state. -/
def State.putRecord (load : Bool) (key : Nat) (v : Word) (s : State) : State :=
  let i := keyIdent key
  let u := keyUnit key
  let w := key % 256
  let proof (p : ProofId) (w : Nat) : State := if load then s.modProof p (Proof.load w v) else s
  if i = 0x1ff0 then proof .node w
  else if i = 0x2ff0 then proof (.bank (Fin.ofNat 12 u)) w
  else if i = 0x3ff0 then proof (if w < 2 then .axisN (Fin.ofNat 48 u) else .axisB (Fin.ofNat 48 u)) (w % 2)
  else if i = 0x2ff1 then s.modBank (Fin.ofNat 12 u) fun k => { k with mir := { k.mir with spare := v } }
  else if i = 0x2ff2 then
    s.modBank (Fin.ofNat 12 u) fun k =>
      { k with offsets := k.offsets.mapFinIdx fun j x _ => if j = w then v.extractLsb' 0 16 else x }
  else if i = 0x3ff1 then
    s.modAxis (Fin.ofNat 48 u) fun a =>
      let h := a.cur.harm
      { a with cur := { a.cur with harm := if w = 0 then #v[v.extractLsb' 16 16, v.extractLsb' 0 16, h[2], h[3]]
                                          else #v[h[0], h[1], v.extractLsb' 16 16, v.extractLsb' 0 16] } }
  else { s with nodeP := s.nodeP.put key v }

/-- Restores the records of a set of layout `layout`, each key placed by `place`; NVBAD for a layout of newer firmware
(R515). Answers whether the set is in force. -/
def State.restoreSet (place : Nat → Option Nat) (layout : Half) (l : List Record) (s : State) : State × Bool :=
  let own := Config.firmwareLayout
  if own.toNat < layout.toNat then (s.raise .nvStore 1, false)
  else
    let same := decide (layout = own)
    let conv (k : Nat) (v : Word) : Word := if same ∨ 0xff0 ≤ keyIdent k % 4096 then v else Config.convertValue layout k v
    (s.each l fun r t => match place r.key with
      | some k => t.putRecord same k (conv r.key r.value)
      | none => t, true)

/-- Configuration at firmware start (R515). -/
def State.restoreConfig (s : State) : State :=
  match s.nv.best with
  | some (no, c) =>
    let r := s.restoreSet some c.layout c.records
    r.1.modNv fun v => { v with setOk := r.2, setNo := r.2 && no }
  | none => if s.nv.sets[0].blank ∧ s.nv.sets[1].blank then s else s.raise .nvStore 1

/-- What runs by restored values: queues, the sequencer, feedback channels and emulation outputs (R387, R389, R407,
R414). -/
def State.applyRestored (s : State) : State :=
  let s1 := s.each allBanks fun b t =>
    t.modBank b fun k => { k with queue := k.queue.enable (decide (s.pA b.val 0x6100 0 = 1)) }
  let s2 := { s1 with auxq := s1.auxq.enable (decide (s.pA 0 0x6900 0 = 1)), auxs := { s1.auxs with cfgNew := true } }.auxLand
  let s3 := s2.each (List.finRange 8) fun n t =>
    if (t.fbCfg n).mode = 0 then t else (t.fbEnter n).modFb n (FbChan.clamp (t.fbCfg n))
  s3.each (List.finRange 4) State.emuLoad

/-! ## Positions (R516 to R519) -/

/-- A 48-bit position in keep RAM. -/
def Keep.posAt (k : Keep) (n : Nat) : Int :=
  (BitVec.ofNat 48 (beNat ((List.range 6).map fun i => getByte k.ram (6 * n + 5 - i)))).toInt

/-- A bit of three bytes of keep RAM from an offset. -/
def Keep.bitAt (k : Keep) (off n : Nat) : Bool := (getByte k.ram (off + n / 8)).getLsbD (n % 8)

/-- A gap entry (R517). -/
def RingEntry.gap (e : RingEntry) : Bool := decide (e.kind = 3)

/-- Position and `POSUNK` of an axis at firmware start (R519). -/
def State.bootPos (s : State) (n : Nat) : Int × Bool :=
  if s.keep.klost = false then (s.keep.posAt n, s.keep.bitAt 0x90 n || !s.keep.bitAt 0x93 n)
  else match (s.nv.ring.takeWhile fun e => !e.gap).find? fun e => e.axis.toNat = n with
    | some e => (e.pos.toInt, e.posunk || decide (e.kind ≠ 1))
    | none => (0, true)

/-- Positions at firmware start; carried axes have none that this node keeps (R519). -/
def State.restorePositions (s : State) : State :=
  s.each allAxes fun n t =>
    let q := if n.val < 24 then s.bootPos n.val else (0, true)
    t.modAxis n fun a =>
      { a with eng := { a.eng with pos := q.1 * oneStep, prevPos := q.1 * oneStep, posunk := q.2 } }

/-! ## The Starter (R518, R523) -/

/-- The image of a slot as a source. -/
def slotSrc (b : Bool) : FwSrc := if b then .slotB else .slotA

/-- A slot by its letter, A false. -/
def Nv.slot (v : Nv) (b : Bool) : FwSlot := if b then v.slots[1] else v.slots[0]

/-- Changes a slot. -/
def Nv.modSlot (b : Bool) (f : FwSlot → FwSlot) (v : Nv) : Nv :=
  { v with slots := v.slots.mapFinIdx fun i x _ => if decide (i = 1) = b then f x else x }

/-- The image that runs next, with its version and rollback level. -/
def Nv.choose (src : FwSrc) (version : Word) (rollback : Byte) (v : Nv) : Nv :=
  { v with chosen := some src, version := version, rollback := rollback }

/-- The sources in the order that `BOOTSRC` and the boot record name (R522, R523). -/
def Nv.order (v : Nv) : List FwSrc :=
  let first := match v.trial with
    | some t => !t
    | none => v.active
  let mram := [slotSrc first, slotSrc (!first)]
  if v.bootsrc = 1 then mram ++ [.ext] else if v.bootsrc = 2 then .ext :: mram else mram

/-- Checks the sources in order: the first image that verifies (R523). -/
def Nv.pickFrom (v : Nv) (imgA imgB imgExt : ImageCheck) : List FwSrc → Nv
  | [] => v
  | src :: r =>
    let slotOk (b : Bool) (i : ImageCheck) : Bool :=
      decide ((v.slot b).st = .valid) && decide ((v.slot b).check v.minroll (decide (i.cause ≠ 6)) = 0)
    let take (b : Bool) : Nv := v.choose (slotSrc b) (v.slot b).version (v.slot b).rollback
    match src with
    | .slotA => if slotOk false imgA then take false else v.pickFrom imgA imgB imgExt r
    | .slotB => if slotOk true imgB then take true else v.pickFrom imgA imgB imgExt r
    | .ext =>
      if imgExt.cause = 0 ∧ v.minroll.toNat ≤ imgExt.rollback.toNat then v.choose .ext imgExt.version imgExt.rollback
      else v.pickFrom imgA imgB imgExt r
    | .none => v.pickFrom imgA imgB imgExt r

/-- A trial that a reset has ended: the record names the other slot again (R523; log 40). -/
def Nv.endTrial (v : Nv) : Nv :=
  match v.trial with
  | some t => { v with trial := none, active := !t, trialInfo := 2 }
  | none => v

/-- STARTER_BOOT (R43, R65, R477, R518, R523): the Starter runs once the reference is present. -/
def State.starterBoot (imgA imgB imgExt : ImageCheck) (s : State) : State :=
  if s.powered ∧ s.refOk ∧ s.boot = 0 ∧ s.link.setUp = false then
    let s1 := { s with link := { s.link with setUp := true },
                       keep := if s.keep.klost then { s.keep with ram := [] } else s.keep }
    if s1.fn.class4 then { s1 with boot := 3, haltC4 := true }
    else
      let order := s1.nv.order
      s1.modNv fun v => (v.endTrial).pickFrom imgA imgB imgExt order
  else s

/-- STARTER_BOOT. -/
def execStarterBoot (imgA imgB imgExt : ImageCheck) (s : State) : Host.Outcome State Fault Refusal :=
  .next (s.starterBoot imgA imgB imgExt)

/-- What the node sends its partner: its configuration set in force (R537). -/
def State.sendSet (s : State) : State :=
  if s.part = .g24t ∧ s.nv.setOk then
    { s with pair := { s.pair with setSent := some (s.nv.setNow.layout, s.nv.setNow.records) } }
  else s

/-- FIRMWARE_START (R80, R515, R519, R523): configuration and positions are restored, the links start, `BOOT` reads 1; a
restored value whose fault halts the node by class 4 leaves it halted (R477). -/
def State.firmwareStart (s : State) : State :=
  match s.nv.chosen with
  | some src =>
    if s.powered ∧ s.refOk ∧ s.boot = 0 ∧ s.link.setUp then
      let s1 := s.restoreConfig.applyRestored.restorePositions
      if s1.boot ≠ 0 then s1 else
      let s2 := { s1 with boot := 1, links := true,
                          nv := { s1.nv with src := src, chosen := none, restored := true, loading := none, trialT := 0 } }
      s2.sendSet.settle
    else s
  | none => s

/-- FIRMWARE_START. -/
def execFirmwareStart (s : State) : Host.Outcome State Fault Refusal := .next s.firmwareStart

/-! ## STORE and the ring (R514, R516, R517) -/

/-- The set that STORE writes (R514): the one not in force. -/
def Nv.spareSet (v : Nv) : Bool := v.setOk && !v.setNo

/-- Places a set. -/
def Nv.putSet (no : Bool) (c : ConfigSet) (v : Nv) : Nv :=
  { v with sets := v.sets.mapFinIdx fun i x _ => if decide (i = 1) = no then c else x }

/-- STORE_COMPLETE (R151, R514, R537): the oldest STORE ends; a write that does not verify leaves the set in force. -/
def State.storeComplete (verified : Bool) (s : State) : State :=
  match s.nv.stores with
  | [] => s
  | r :: rest =>
    let v := s.nv
    let no := v.spareSet
    let c := { r.set with seq := (if v.setOk then v.setNow.seq else 0) + 1 }
    if verified then
      let v1 := v.putSet no c
      let s1 := { s with nv := { v1 with stores := rest, nstores := v.nstores + 1, setOk := true, setNo := no } }
      ((s1.done r.mb (s1.storeWords r.set)).sendSet).settle
    else
      let v1 := v.putSet no { c with ok := false }
      let s1 := { s with nv := { v1 with stores := rest } }
      ((s1.raise .nvStore 0).err r.mb .nvfail 0).settle

/-- STORE_COMPLETE. -/
def execStoreComplete (verified : Bool) (s : State) : Host.Outcome State Fault Refusal := .next (s.storeComplete verified)

/-- The next ring entry is written (R516). -/
def Nv.addEntry (axis : BitVec 5) (kind : BitVec 2) (posunk : Bool) (pos : Int) (rtc : Word) (v : Nv) : Nv :=
  let e : RingEntry := ⟨v.ringSeqNo + 1, axis, kind, posunk, BitVec.ofInt 48 pos, rtc⟩
  { v with ring := (e :: v.ring).take 2048, ringSeqNo := v.ringSeqNo + 1, rhead := v.rhead + 1 }

/-- POSLOG_ENTRY_WRITE (R514, R516, R517): the oldest entry that waits; a gap entry goes before the first after the
window reopens. -/
def State.poslogWrite (verified : Bool) (s : State) : State :=
  match s.nv.ringDue with
  | [] => s
  | (n, off, posunk, pos) :: rest =>
    if !s.kiln.open_ then
      s.modNv fun v => { v with ringDue := rest, gapPend := true,
                                rskip := if v.rskip = 0xffffffff then 0xffffffff else v.rskip + 1 }
    else if !verified then
      (if s.nv.gapPend then s else s.modNv fun v => { v with ringDue := rest }).raise .nvStore 0
    else if s.nv.gapPend then s.modNv fun v => { v.addEntry 31 3 false 0 s.keep.rtc with gapPend := false }
    else
      s.modNv fun v =>
        { v.addEntry (BitVec.ofNat 5 n.val) (if off then 1 else 0) posunk pos s.keep.rtc with ringDue := rest }

/-- POSLOG_ENTRY_WRITE. -/
def execPoslogEntryWrite (verified : Bool) (s : State) : Host.Outcome State Fault Refusal := .next (s.poslogWrite verified)

/-! ## Commands (R544, R545) -/

/-- An MRAM write of a command: refused while the write window is closed, and NVFAIL where it does not verify (R511,
R514, R544). -/
def State.mramWrite (m : MbId) (verified : Bool) (f : State → State) (s : State) : State :=
  if !s.kiln.open_ then s.err m .temp 0
  else if !verified then (s.raise .nvStore 0).err m .nvfail 0
  else f s

/-- Code of a slot's state in FW_INFO. -/
def SlotSt.code : SlotSt → BitVec 2
  | .empty => 0
  | .loading => 1
  | .valid => 2

/-- Code of the running source in FW_INFO. -/
def FwSrc.code : FwSrc → BitVec 2
  | .slotA => 0
  | .slotB => 1
  | .ext => 2
  | .none => 3

/-- Version of a slot in FW_INFO: 0 unless VALID. -/
def FwSlot.infoVersion (x : FwSlot) : Word := if x.st = .valid then x.version else 0

/-- Words of FW_INFO (R545). -/
def Nv.info (v : Nv) : List Word :=
  let trial : BitVec 4 := if v.trial.isSome ∧ v.trialInfo ≠ 3 then 1 else v.trialInfo.setWidth 4
  [v.minroll ++ v.vcause ++ (0#2 ++ v.bootsrc) ++ trial ++ 0#2 ++ v.src.code ++ 0#2 ++ v.slots[1].st.code ++ 0#2
      ++ v.slots[0].st.code,
   v.slots[0].infoVersion, v.slots[1].infoVersion, v.extaddr]

/-- FW_INFO. -/
def execFwInfo (m : MbId) (s : State) : Host.Outcome State Fault Refusal :=
  .next (s.run m 2 0x340 fun _ t => t.done m t.nv.info)

/-- The slot that a command names. -/
def State.cmdSlot (s : State) (m : MbId) : Bool := (s.mbx[m].pay 1).getLsbD 0

/-- A slot that must not be written: the running slot, or the slot in trial (R525). -/
def Nv.locked (v : Nv) (b : Bool) : Bool := decide (v.src = slotSrc b) || decide (v.trial = some b)

/-- FW_BEGIN (R525, R545). -/
def State.fwBegin (m : MbId) (verified : Bool) (_ : Target) (s : State) : State :=
  let b := s.cmdSlot m
  let n := (s.mbx[m].pay 2).toNat
  if s.nv.locked b then s.err m .state 1
  else if n < 200 ∨ 163840 < n ∨ n % 8 ≠ 0 then s.err m .range 2
  else s.mramWrite m verified fun t =>
    (t.modNv fun v => { v.modSlot b (fun x => { x with st := .loading, len := n, hash := 0 }) with loading := some b }).done m
      [t.mbx[m].pay 1]

/-- FW_BEGIN. -/
def execFwBegin (m : MbId) (verified : Bool) (s : State) : Host.Outcome State Fault Refusal :=
  .next (s.run m 2 0x341 (State.fwBegin m verified))

/-- FW_WRITE (R525, R545). -/
def State.fwWrite (m : MbId) (verified : Bool) (_ : Target) (s : State) : State :=
  let x := s.mbx[m]
  let off := (x.pay 1).toNat
  let len := s.nv.loadLen
  match s.nv.loading with
  | none => s.err m .state 0
  | some b =>
    if off % 4 ≠ 0 ∨ len ≤ off then s.err m .range 1
    else if len < off + 4 * (x.count - 1) then s.err m .range (2 + (len - off) / 4)
    else s.mramWrite m verified fun t =>
      let data := (List.range (x.count - 1)).flatMap fun i => bytesOf 4 (x.pay (i + 2)).toNat
      (t.modNv fun v => v.modSlot b fun y => { y with bytes := putBytes off data y.bytes }).done m []

/-- FW_WRITE. -/
def execFwWrite (m : MbId) (verified : Bool) (s : State) : Host.Outcome State Fault Refusal :=
  .next (s.run m 2 0x342 (State.fwWrite m verified))

/-- FW_FETCH (R497, R524, R545): transfers one after the other, from slot 0 unless translated writes are enabled. -/
def State.fwFetch (m : MbId) (_ : Target) (s : State) : State :=
  if s.nv.loading = none then s.err m .state 0
  else if !s.kiln.open_ then s.err m .temp 0
  else
    let slot := if s.xwen then s.xwSlot else 0
    (s.xqueue (.fw m 0 (min 512 s.nv.loadLen)) (s.mbx[m].pay 1).toNat slot).wait m .fetch

/-- FW_FETCH. -/
def execFwFetch (m : MbId) (s : State) : Host.Outcome State Fault Refusal := .next (s.run m 2 0x343 (State.fwFetch m))

/-- FW_VERIFY (R521, R525, R545). -/
def State.fwVerify (m : MbId) (check : ImageCheck) (verified : Bool) (_ : Target) (s : State) : State :=
  let b := s.cmdSlot m
  let x := s.nv.slot b
  if s.nv.locked b then s.err m .state 1
  else s.mramWrite m verified fun t =>
    let cause := x.check t.nv.minroll (decide (check.cause ≠ 6))
    let close (v : Nv) : Nv := { v with vcause := cause, loading := if v.loading = some b then none else v.loading }
    if cause = 0 then
      (t.modNv fun v => close (v.modSlot b fun y => { y with st := .valid, hash := y.bodyHash })).done m
        [x.version, 0#22 ++ x.keyIdx.extractLsb' 0 2 ++ x.rollback]
    else (t.modNv fun v => close (v.modSlot b fun y => { y with st := .empty })).err m .image 0

/-- FW_VERIFY. -/
def execFwVerify (m : MbId) (check : ImageCheck) (verified : Bool) (s : State) : Host.Outcome State Fault Refusal :=
  .next (s.run m 2 0x344 (State.fwVerify m check verified))

/-- FW_SWAP (R526, R545): a live swap is prepared; under the Starter the slot boots on trial. -/
def State.fwSwap (m : MbId) (verified : Bool) (_ : Target) (s : State) : State :=
  let b := s.cmdSlot m
  if (s.nv.slot b).st ≠ .valid ∨ s.nv.src = slotSrc b then s.err m .state 1
  else s.mramWrite m verified fun t =>
    let t1 := t.done m [0#31 ++ BitVec.ofBool b]
    if t.boot = 0 then
      t1.modNv fun v => { v.choose (slotSrc b) (v.slot b).version (v.slot b).rollback with
                          trial := some b, active := b, trialInfo := 0 }
    else t1.modNv fun v => { v with swap := some ⟨b, false, v.active, v.trial⟩ }

/-- FW_SWAP. -/
def execFwSwap (m : MbId) (verified : Bool) (s : State) : Host.Outcome State Fault Refusal :=
  .next (s.run m 2 0x345 (State.fwSwap m verified))

/-- FW_CONFIRM (R529, R545). -/
def State.fwConfirm (m : MbId) (verified : Bool) (_ : Target) (s : State) : State :=
  if s.nv.trial = none ∨ s.boot = 0 then s.err m .state 0
  else s.mramWrite m verified fun t =>
    let roll : Byte := if t.nv.minroll.toNat < t.nv.rollback.toNat then t.nv.rollback else t.nv.minroll
    (t.modNv fun v => { v with trial := none, trialInfo := 0, minroll := roll }).done m [0#24 ++ roll]

/-- FW_CONFIRM. -/
def execFwConfirm (m : MbId) (verified : Bool) (s : State) : Host.Outcome State Fault Refusal :=
  .next (s.run m 2 0x346 (State.fwConfirm m verified))

/-- BOOT_CFG (R522, R545). -/
def State.bootCfg (m : MbId) (verified : Bool) (_ : Target) (s : State) : State :=
  let w := s.mbx[m].pay 1
  if w.extractLsb' 16 16 = 0 ∨ w.extractLsb' 0 2 = 3 then s.err m .range 1
  else s.mramWrite m verified fun t =>
    (t.modNv fun v => { v with trialTo := (w.extractLsb' 16 16).toNat, bootsrc := w.extractLsb' 0 2,
                               extaddr := t.mbx[m].pay 2 }).done m []

/-- BOOT_CFG. -/
def execBootCfg (m : MbId) (verified : Bool) (s : State) : Host.Outcome State Fault Refusal :=
  .next (s.run m 2 0x347 (State.bootCfg m verified))

/-- NV_CLEAR (R510, R545). -/
def State.nvClear (m : MbId) (verified : Bool) (_ : Target) (s : State) : State :=
  let w := s.mbx[m].pay 1
  if s.presentAxes.any fun n => decide (s.axes[n].eng.st ≠ .off) then s.err m .state 0
  else s.mramWrite m verified fun t =>
    let t1 := t.modNv fun v => if w.getLsbD 1 then { v with ring := [] } else v
    (t1.modNv fun v => if w.getLsbD 0 then { v with sets := Vector.replicate 2 {}, setOk := false, setNo := false } else v).done
      m []

/-- NV_CLEAR. -/
def execNvClear (m : MbId) (verified : Bool) (s : State) : Host.Outcome State Fault Refusal :=
  .next (s.run m 2 0x348 (State.nvClear m verified))

/-- The 16 bytes of a ring entry (R516). -/
def RingEntry.bytes (e : RingEntry) : List Byte :=
  let eax : Byte := BitVec.ofBool e.posunk ++ e.kind ++ e.axis
  let head := bytesOf 4 e.seq.toNat ++ [eax]
  let tail := bytesOf 6 e.pos.toNat ++ bytesOf 4 e.rtc.toNat
  head ++ [(head ++ tail).foldl (· ^^^ ·) 0] ++ tail

/-- Bytes as little-endian words. -/
def wordsOf (l : List Byte) : List Word := (groupsOf 4 l.length l).map fun g => BitVec.ofNat 32 (beNat g.reverse)

/-- POSLOG_READ (R545). -/
def execPoslogRead (m : MbId) (s : State) : Host.Outcome State Fault Refusal :=
  .next (s.run m 2 0x349 fun _ t =>
    let n := (t.mbx[m].pay 1).extractLsb' 0 5
    match t.nv.ring.find? fun e => !e.gap && decide (e.axis = n) with
    | some e => t.done m (wordsOf e.bytes)
    | none => t.done m [0, 0, 0, 0])

/-- KEEP_READ (R545). -/
def execKeepRead (m : MbId) (s : State) : Host.Outcome State Fault Refusal :=
  .next (s.run m 2 0x34a fun _ t =>
    let w := t.mbx[m].pay 1
    let n := (w.extractLsb' 8 4).toNat
    let off := (w.extractLsb' 0 8).toNat
    if n = 0 ∨ off % 4 ≠ 0 ∨ 256 < off + 4 * n then t.err m .range 1
    else t.done m (wordsOf ((List.range (4 * n)).map fun i => getByte t.keep.ram (off + i))))

/-- FUSE_BLOW (R543). -/
def execFuseBlow (m : MbId) (s : State) : Host.Outcome State Fault Refusal :=
  .next (s.run m 2 0x34b fun _ t =>
    if t.mbx[m].pay 1 ≠ 0x46555345 then t.err m .range 1
    else if !t.kiln.open_ then t.err m .temp 0
    else (t.modNv fun v => { v with fuse := true }).done m [])

/-! ## Live swap (R121, R526 to R529) -/

/-- SWAP_PAUSE (R121, R526): the last taken command has completed; commands rung meanwhile complete BUSY. -/
def State.swapPause (s : State) : State :=
  match s.nv.swap with
  | some _ =>
    if s.boot = 1 ∧ (s.waiters fun _ => true) = [] then
      { s with boot := 2 }.each allMbs fun m t => if t.mbx[m].rung then t.err m .busy 0 else t
    else s
  | none => s

/-- SWAP_PAUSE. -/
def execSwapPause (s : State) : Host.Outcome State Fault Refusal := .next s.swapPause

/-- SWAP_HANDOVER (R526, R529, R476): the slot's header matches the recorded hash and the new firmware takes over. -/
def State.swapHandover (s : State) : State :=
  match s.nv.swap with
  | some w =>
    let x := s.nv.slot w.slot
    if s.boot = 2 ∧ x.st = .valid ∧ x.bodyHash = x.hash then
      (s.modNv fun v =>
        { v with swap := none, active := w.slot, trial := if w.revert then none else some w.slot,
                 trialInfo := if w.revert then 2 else 0, src := slotSrc w.slot, version := x.version,
                 rollback := x.rollback, trialT := 0 }).processorRuns
    else s
  | none => s

/-- SWAP_HANDOVER. -/
def execSwapHandover (s : State) : Host.Outcome State Fault Refusal := .next s.swapHandover

/-- SWAP_TIMEOUT (R527): the record is restored and the outgoing firmware runs again. -/
def State.swapTimeout (s : State) : State :=
  match s.nv.swap with
  | some w =>
    if s.boot = 2 then
      (s.modNv fun v =>
        { v with swap := none, active := w.oldActive, trial := w.oldTrial, trialInfo := 3 }).processorRuns
    else s
  | none => s

/-- SWAP_TIMEOUT. -/
def execSwapTimeout (s : State) : Host.Outcome State Fault Refusal := .next s.swapTimeout

/-- TRIAL_TIMEOUT (R529): `TRIALTO` seconds have passed on trial before the tick ends; a live swap back to the other
slot. -/
def State.trialTimeout (s : State) : State :=
  match s.nv.trial with
  | some b =>
    if s.boot = 1 ∧ s.nv.swap = none ∧ s.nv.src = slotSrc b ∧ 20000 * s.nv.trialTo ≤ s.nv.trialT + s.units then
      s.modNv fun v => { v with swap := some ⟨!b, true, v.active, v.trial⟩ }
    else s
  | none => s

/-- TRIAL_TIMEOUT. -/
def execTrialTimeout (s : State) : Host.Outcome State Fault Refusal := .next s.trialTimeout

end Sys2Proof.Machine
end

