-- ==== Sys2Proof/Machine/Pair.lean ====
section
/-! DEFINITION. The pair of an OC-G24T: heartbeats, takeover, hand-over and release (18_store_update_service.md R534 to R542,
R548). -/
namespace Sys2Proof.Machine

/-- TAKEEN as applied (R548). -/
def State.takeen (s : State) : Bool := decide (fieldN (s.pA 0 0x1900 0) 0 1 = 1)

/-- Changes the pair's registers. -/
def State.modPair (f : Pair → Pair) (s : State) : State := { s with pair := f s.pair }

/-- An axis as a heartbeat carries it (R534). -/
def Axis.report (a : Axis) : AxisReport :=
  ⟨a.eng.ipos, a.eng.st.code, a.eng.posunk, !a.eng.atRest, BitVec.ofNat 12 a.cur.imag⟩

/-- The node is one of a pair, with power and a reference (R534). -/
def State.paired (s : State) : Bool := decide (s.part = .g24t) && s.powered && s.refOk

/-! ## Heartbeats (R534, R535) -/

/-- HEARTBEAT_SEND (R534). -/
def State.heartbeatSend (s : State) : State :=
  if s.paired then
    s.modPair fun p => { p with sent := some (s.boot, s.fn.class4, BitVec.ofNat 16 s.tick,
                                              Vector.ofFn fun n : Fin 24 => (s.axes[(Fin.ofNat 48 n.val : AxisId)]).report) }
  else s

/-- HEARTBEAT_SEND. -/
def execHeartbeatSend (s : State) : Host.Outcome State Fault Refusal := .next s.heartbeatSend

/-- A heartbeat arrives: with `CLASS4` set it does not count (R535). -/
def Pair.take (boot : BitVec 4) (class4 : Bool) (tick : Half) (axes : Vector AxisReport 24) (p : Pair) : Pair :=
  { p with pboot := boot, pclass4 := class4, ptick := tick, reports := some axes, counted := p.counted || !class4,
           hbmiss := if class4 then p.hbmiss else 0, palive := p.palive || !class4 }

/-- HEARTBEAT_RECEIVE (R534, R535, R547). -/
def execHeartbeatReceive (boot : BitVec 4) (class4 : Bool) (tick : Half) (axes : Vector AxisReport 24) (s : State) :
    Host.Outcome State Fault Refusal :=
  .next (if s.paired then s.modPair (Pair.take boot class4 tick axes) else s)

/-! ## Values of a bank that changes its node (R513, R536 to R538) -/

/-- The key that a value of bank `b` of the sending side has as a value of bank `c` here; none for values of other
blocks. -/
def placeBank (b c key : Nat) : Option Nat :=
  let i := keyIdent key
  let u := keyUnit key
  let w := key % 256
  if i / 4096 = 2 ∨ (0x6000 ≤ i ∧ i < 0x6200) then (if u = b then some (keyOf c i w) else none)
  else if i / 4096 = 3 then (if u / 4 = b then some (keyOf (4 * c + u % 4) i w) else none)
  else if i / 4096 = 4 then (if u / 8 = b then some (keyOf (8 * c + u % 8) i w) else none)
  else none

/-- Nothing of a bank and its axes is held any more: values at their defaults, Proofs OPEN, streams closed (R537,
R541). -/
def State.clearBank (c : BankId) (s : State) : State :=
  let keep (l : List (Nat × Word)) : List (Nat × Word) := l.filter fun q => !keyOfBank c q.1
  let s1 := { s with nodeP := ⟨keep s.nodeP.applied, keep s.nodeP.staged⟩, bankP := ⟨keep s.bankP.applied, keep s.bankP.staged⟩ }
  let s2 := ((s1.modProof (.bank c) fun _ => {}).modBank c fun _ => {})
  s2.each allPos fun p t =>
    let n := axisAt c p
    (((t.modProof (.axisN n) fun _ => {}).modProof (.axisB n) fun _ => {}).modMem (MemPort.dropFetch n)).modAxis n fun _ => {}

/-- Bank here of a partner's bank. -/
def partnerBank (b : Fin 6) : BankId := ⟨b.val + 6, by omega⟩

/-- Report of the axis at a position of bank b of a side. -/
def reportAt (l : Vector AxisReport 24) (b : Fin 6) (p : Pos) : AxisReport := l[4 * b.val + p.val]

/-! ## Takeover (R536, R537, R542) -/

/-- A partner's axis at takeover: OFF at the position of the last heartbeat, `POSUNK` if it was moving (R536). -/
def takenEngine (r : Option AxisReport) : Engine :=
  match r with
  | some r => { pos := r.pos * oneStep, prevPos := r.pos * oneStep, posunk := r.posunk || r.moving }
  | none => { posunk := true }

/-- A partner's bank comes to this node: its link switches move, its values come from the mirrored set, and it is in
orphan deceleration until it can be reinitialised (R536, R537). -/
def State.takeBank (b : Fin 6) (s : State) : State :=
  let c := partnerBank b
  let s1 := (s.clearBank c).modPair fun p => { p with tbanks := p.tbanks ||| (1#6 <<< b.val), carry := 1 }
  let s2 := match s1.pair.mirror with
    | some q => (s1.restoreSet (placeBank b.val c.val) q.1 q.2).1
    | none => s1
  let s3 := (s2.modBank c fun k =>
    { k with st := .orphan, view := .orphan, reinit := true, undelivered := true, hold := true, holdover := true }).channelOn c
  s3.each allPos fun p t => t.modAxis (axisAt c p) fun a =>
    { a with eng := takenEngine (s.pair.reports.map fun l => reportAt l b p) }

/-- Partner's banks that the node may take: silent on their link, or of a partner at class 4 (R542). -/
def State.takeable (s : State) (silent : BitVec 6) : List (Fin 6) :=
  (List.finRange 6).filter fun b => !s.pair.tbanks.getLsbD b.val && (silent.getLsbD b.val || s.pair.pclass4)

/-- HEARTBEAT_INTERVAL_END (R535, R536, R542): `silent` the partner's bank links without a downstream carrier for 150
µs. -/
def State.heartbeatInterval (silent : BitVec 6) (s : State) : State :=
  if !s.paired then s
  else if s.pair.counted then s.modPair fun p => { p with counted := false }
  else
    let n : BitVec 2 := if s.pair.hbmiss = 3 then 3 else s.pair.hbmiss + 1
    let lost := decide (n = 3)
    let s1 := s.modPair fun p => { p with hbmiss := n, palive := p.palive && !lost }
    let s2 := s1.raiseIf (lost && decide (s.pair.hbmiss ≠ 3)) .node 2
    if lost ∧ s2.takeen ∧ s2.links ∧ s2.pair.carry ≠ 2 then
      let l := s2.takeable silent
      if l = [] then s2 else (s2.each l State.takeBank).raise .node 3
    else s2

/-- HEARTBEAT_INTERVAL_END. -/
def execHeartbeatIntervalEnd (silent : BitVec 6) (s : State) : Host.Outcome State Fault Refusal :=
  .next (s.heartbeatInterval silent)

/-- MIRRORED_SET_RECEIVE (R537). -/
def execMirroredSetReceive (layout : Half) (records : List Record) (s : State) : Host.Outcome State Fault Refusal :=
  .next (if s.paired then s.modPair fun p => { p with mirror := some (layout, records) } else s)

/-! ## Hand-over and release (R538, R539) -/

/-- Axes of banks may change their node: STANDBY, FROZEN or OFF. -/
def State.axesCalm (s : State) (l : List BankId) : Bool :=
  l.all fun b => allPos.all fun p =>
    let st := s.axes[axisAt b p].eng.st
    decide (st = .standby ∨ st = .frozen ∨ st = .off)

/-- The partner's heartbeat shows its firmware running (R538, R539, R542). -/
def Pair.ready (p : Pair) : Bool := p.palive && decide (p.pboot = 1)

/-- `TAKEEN` of the partner as its set shows it; 0 where none is held (log 41). -/
def Pair.partnerTakes (p : Pair) : Bool :=
  match p.mirror with
  | some q => q.2.any fun r => decide (r.key = keyOf 0 0x1900 0) && r.value.getLsbD 0
  | none => false

/-- The node's own banks. -/
def ownBanks : List BankId := (List.range 6).map fun b => Fin.ofNat 12 b

/-- The partner's banks that the node carries. -/
def State.carried (s : State) : List BankId := s.presentBanks.filter fun b => decide (6 ≤ b.val)

/-- PAIR_HANDOVER (R538). -/
def State.pairHandover (m : MbId) (_ : Target) (s : State) : State :=
  if s.part ≠ .g24t ∨ s.axesCalm ownBanks = false ∨ s.pair.ready = false ∨ s.pair.partnerTakes = false
      ∨ s.pair.carry ≠ 0 ∨ s.pair.handing.isSome then s.err m .state 0
  else (s.modPair fun p => { p with handing := some (m, false) }).wait m .handover

/-- PAIR_HANDOVER. -/
def execPairHandover (m : MbId) (s : State) : Host.Outcome State Fault Refusal := .next (s.run m 2 0x34c (State.pairHandover m))

/-- PAIR_RELEASE (R539). -/
def State.pairRelease (m : MbId) (_ : Target) (s : State) : State :=
  if s.part ≠ .g24t ∨ s.pair.carry ≠ 1 ∨ s.axesCalm s.carried = false ∨ s.pair.ready = false ∨ s.pair.handing.isSome then
    s.err m .state 0
  else (s.modPair fun p => { p with handing := some (m, true) }).wait m .handover

/-- PAIR_RELEASE. -/
def execPairRelease (m : MbId) (s : State) : Host.Outcome State Fault Refusal := .next (s.run m 2 0x34d (State.pairRelease m))

/-- The edge whose packets are marked hand-over: the banks leave this node, which reports its own as UNPOWERED (R538,
R539, R541). -/
def State.handOverEdge (s : State) : State :=
  match s.pair.handing with
  | none => s
  | some (m, back) =>
    let l := if back then s.carried else ownBanks
    let gone (b : BankId) (t : State) : State :=
      let t1 := t.failOps b
      if back then t1.clearBank b else t1.modBank b (Bank.nodeSide .unpowered)
    let s1 := s.each l gone
    let s2 := s1.modPair fun p =>
      if back then { p with handing := none, tbanks := 0, carry := 0 } else { p with handing := none, carry := 2 }
    (s2.endIf m .handover fun t => t.done m [t.pair.stat])

/-- The axis of a hand-over at a position of bank b. -/
def handedAt (l : Vector HandedAxis 24) (b : Fin 6) (p : Pos) : HandedAxis := l[4 * b.val + p.val]

/-- Engine of an axis that arrives by hand-over: the exact position, energised axes with their enable (R538). -/
def handedEngine (r : AxisReport) : Engine :=
  let st : AxState := if r.state = 1 then .standby else if r.state = 5 then .frozen else .off
  let on := decide (st ≠ .off)
  { st := st, pos := r.pos * oneStep, prevPos := r.pos * oneStep, posunk := r.posunk, venNext := on, ven := on, en := on }

/-- A bank arrives by hand-over: in RUN, its axes at the same angle and magnitude, and a latched axis still latched
(R6, R354, R538). Its safe-state channel is active from then on (R541). -/
def State.attachBank (b : Fin 6) (c : BankId) (values : List Record) (axes : Vector HandedAxis 24) (s : State) : State :=
  let s0 := ((s.clearBank c).restoreSet (placeBank b.val c.val) Config.firmwareLayout values).1
  let arm (p : Pos) : Byte := (handedAt axes b p).arm
  let s1 := s0.modBank c fun k =>
    { k with mir := { k.mir with legflt := Vector.ofFn fun p : Fin 4 => (handedAt axes b p).legflt,
                                 arm := arm 3 ++ arm 2 ++ arm 1 ++ arm 0 } }
  let s2 := s1.each allPos fun p t => t.modAxis (axisAt c p) fun a =>
    let r := (handedAt axes b p).report
    { a with eng := handedEngine r,
             cur := { a.cur with sEff := 20 * r.imag.toNat, bEff := 20 * r.imag.toNat, imag := r.imag.toNat,
                                 holdDone := decide (r.state = 1), holdT := if r.state = 1 then 1310700 else 0 } }
  let s3 := (s2.deliverCopies c).initialise c
  let sp (p : Fin 4) : Setpoint :=
    let r := (handedAt axes b p).report
    ⟨angleOf (r.pos * oneStep), 0#4 ++ r.imag ++ 0#15 ++ BitVec.ofBool (decide (r.state ≠ 0)), 0⟩
  let s4 := s3.modBank c fun k =>
    let ang : Vector Word 4 := Vector.ofFn fun p : Fin 4 => (sp p).angle
    { k with sp := Vector.ofFn sp, a0 := ang, a1 := ang }
  s4.channelOn c

/-- HAND_OVER_RECEIVE (R538, R539): the partner's banks come to this node, or its own come back. -/
def State.handOverReceive (values : List Record) (axes : Vector HandedAxis 24) (s : State) : State :=
  if s.paired = false ∨ s.links = false then s
  else if s.pair.carry = 2 then
    (s.modPair fun p => { p with carry := 0 }).each (List.finRange 6) fun b t =>
      t.attachBank b (Fin.ofNat 12 b.val) values axes
  else if s.pair.carry = 0 ∧ s.takeen then
    (s.modPair fun p => { p with carry := 1, tbanks := 0x3f }).each (List.finRange 6) fun b t =>
      t.attachBank b (partnerBank b) values axes
  else s

/-- HAND_OVER_RECEIVE. -/
def execHandOverReceive (values : List Record) (axes : Vector HandedAxis 24) (s : State) :
    Host.Outcome State Fault Refusal :=
  .next (s.handOverReceive values axes)

end Sys2Proof.Machine
end

