-- ==== Sys2Proof/Machine/PwmTrigger.lean ====
section
/-! DEFINITION. The PWM period and the converter triggers of a bank: time base, leg codes, filter, injection, current loops,
observer, results for the queue and for Kiln (10_pwm.md R304 to R323, 08_microsteps_and_current.md R225 to R257,
09_load_angle_observer.md R268 to R298, 12_sampling_and_queues.md R371 to R381). -/
namespace Sys2Proof.Machine

/-! ## The time base (R41, R305, R320, R321) -/

/-- DRVMODE of the values in use leaves TEST (R315). -/
def PwmUse.leave (u : PwmUse) : PwmUse := { u with drv := leaveTest u.drv }

/-- The period that starts: the first on the grid at `offset`, the next of the old length, a bridge, or the first of new
values, which follows an extension where there is one (R320). -/
def PwmBase.nextPeriod (offset : Nat → Int) (w : PwmBase) : PwmBase :=
  if !w.started then
    { w with started := true, pstart := offset w.use.period, len := w.use.period, number := 0, bridge := false }
  else
    let at_ := w.pstart + w.len
    match w.changes with
    | [] => { w with pstart := at_, len := w.use.period, number := w.number + 1, bridge := false }
    | c :: r =>
      if 0 < c.old then
        { w with pstart := at_, len := w.use.period, number := w.number + 1, bridge := false,
                 changes := { c with old := c.old - 1 } :: r }
      else if 4800 ≤ c.gap then
        { w with pstart := at_, len := c.gap, number := w.number + 1, bridge := true, changes := { c with gap := 0 } :: r }
      else
        { w with pstart := at_ + c.gap, len := c.use.period, use := c.use, number := w.number + 1, bridge := false,
                 changes := r }

/-- A bank that leaves SAFE or SERVICE enters RUN with this period (R329, R530). -/
def State.releaseRun (b : BankId) (s : State) : State :=
  let w := s.banks[b].pwm
  let keep : PwmBase :=
    { w with use := w.use.leave, changes := w.changes.map fun (c : PwmChange) => { c with use := c.use.leave } }
  if s.banks[b].releaseDue then ((s.bankRun b).modBank b fun k => { k with pwm := keep }).lateCauses b else s

/-- A table that takes the default entries, with its words written again (R99, R267). -/
def State.takeTable (b : BankId) (p : Pos) (s : State) : State :=
  if s.banks[b].tableNew.getLsbD p.val then
    let n := axisAt b p
    let key := keyOf (2 * n.val) 0x4100 0
    let s1 := { s with bankP := (List.range 128).foldl (fun q j => q.put (key + j) (sineWord j)) s.bankP }
    (s1.openProofs [.axisB n]).rewritten key 128
  else s

/-! ## Legs of an axis in a period (R307 to R314, R331) -/

/-- What the legs of an axis do in a period. -/
inductive LegMode where
  | off       -- every leg off, or held by a release, a latch or a forced level
  | freewheel -- enable has gone: the freewheel of the enable-0 path starts
  | loop      -- CURRENT
  | duty      -- VOLTAGE or TEST
  deriving DecidableEq, Repr

/-- What the legs of an axis do (R313, R325, R352, R354, R436, R532, R533). -/
def State.legMode (s : State) (b : BankId) (p : Pos) : LegMode :=
  let k := s.banks[b]
  let l := s.axes[axisAt b p].legs
  let m := driveMode k.pwm.use.drv p
  let on := k.sp[p].cur.getLsbD 0
  if l.rel ≠ .none ∨ l.latch ∨ k.safe.forced ∨ k.cal then .off
  else if k.st = .orphan ∧ k.sp[p].vff = 0 then .off
  else if ¬ (k.st = .run ∨ k.st = .service ∨ k.st = .orphan) then .off
  else if m = 2 then (if k.st = .service then .duty else .off)
  else if on then (if m = 1 then .duty else .loop)
  else if l.energised then .freewheel
  else .off

/-- Software-set codes of a position (R306, R331). -/
def PwmUse.codes (u : PwmUse) (p : Pos) : Vector Nat 4 :=
  Vector.ofFn fun i : Fin 4 => (u.duty.toList.getD (4 * p.val + i.val) 0).toNat % 1048576

/-- Filter words of a position (R331). -/
def PwmUse.filts (u : PwmUse) (p : Pos) : Vector Word 4 :=
  Vector.ofFn fun i : Fin 4 => u.filt.toList.getD (4 * p.val + i.val) 0x30

/-- The codes that drive an axis in the period, before injection (R253, R307, R308, R321). -/
def State.axisCodes (s : State) (b : BankId) (p : Pos) (m : LegMode) : Vector Nat 4 :=
  let w := s.banks[b].pwm
  let a := s.axes[axisAt b p]
  match m with
  | .loop =>
    #v[a.loopA.code1, a.loopA.code2, a.loopB.code1, a.loopB.code2].map fun c =>
      scaleCode (loopCode c w.codeP) w.codeP w.len
  | .duty => (w.use.codes p).map fun c => if w.bridge then scaleCode c w.use.period w.len else c
  | _ => Vector.replicate 4 0

/-- Result of the pattern of an axis: injected, skipped, or none in this period (R275, R276). -/
def ObsBank.inject (odd : Bool) (amp : Nat) (codes : Vector Nat 4) (filts : Vector Word 4) (len : Nat) (o : ObsBank) :
    ObsBank × Vector Nat 4 :=
  if odd && o.injecting then
    let a : Int := (if o.injPos then 16 * amp else -(16 * amp) : Int)
    if injectionFits codes a filts len then
      ({ o with pattern := true, injPos := !o.injPos, skipRun := 0 }, addPattern codes a)
    else ({ o with pattern := false, injsk := true, skipRun := o.skipRun + 1 }, codes)
  else ({ o with pattern := false }, codes)

/-- A loop that starts with its axis: integrator 0, modulation 0 (R252). -/
def PhaseLoop.begin (p : Nat) (l : PhaseLoop) : PhaseLoop :=
  { l with integ := 0, volts := 0, delta := 0, code1 := 8 * p, code2 := 8 * p, satRun := 0, openRun := 0, trkRun := 0 }

/-- The axis at a period start: energised, freewheeling through its low sides, or off (R252, R313, R436). -/
def Axis.startPeriod (m : LegMode) (codeP : Nat) (a : Axis) : Axis :=
  match m with
  | .off => { a with legs := { a.legs with energised := false } }
  | .freewheel => { a.force false with legs := { a.legs with rel := .lows, enRel := true, bankRel := false, step2 := false,
                                                             energised := false, cut := Vector.replicate 4 (0, 1) } }
  | .loop =>
    if a.legs.energised then a
    else { a with loopA := a.loopA.begin codeP, loopB := a.loopB.begin codeP, legs := { a.legs with energised := true } }
  | .duty => { a with loopA := { a.loopA with integ := 0 }, loopB := { a.loopB with integ := 0 },
                      legs := { a.legs with energised := true } }

/-- One leg: its on-time in the period and whether the filter adjusted it (R306, R309, R310). -/
def legTime (code num len : Nat) (filt : Word) : Nat × Bool := minPulse filt (onTime code num len) len

/-- The period of one axis: mode, codes, injection, filter, count of adjusted pulses, DUTYCLAMP (R307, R311); coefficients set
before come into use (R230, R266). -/
def State.axisPeriod (b : BankId) (p : Pos) (s : State) : State :=
  let n := axisAt b p
  let m := s.legMode b p
  let w := s.banks[b].pwm
  let s1 := s.modAxis n (Axis.startPeriod m w.codeP)
  let codes := s1.axisCodes b p m
  let live := decide (m = .loop ∨ m = .duty)
  let r := s1.axes[n].obs.inject (live && decide (w.number % 2 = 1)) (fieldN (s.bA b.val 0x2200 0) 0 8) codes
    (w.use.filts p) w.len
  let d : Vector (Nat × Bool) 4 := Vector.ofFn fun i : Fin 4 =>
    if live then legTime r.2[i] w.number w.len (w.use.filts p)[i] else (0, false)
  let s2 := s1.modAxis n fun a =>
    { a with obs := { r.1 with harmUse := r.1.harm },
             legs := if live then { a.legs with cut := d.map fun x => (x.1, w.len) } else a.legs }
  let adj := if r.1.pattern then 0 else (d.toList.filter fun x => x.2).length
  let clamp := decide (m = .duty) && (w.use.codes p).toList.any fun c => dutyClamps c w.use.period
  let s3 := s2.modBank b fun k =>
    { k with pwm := { k.pwm with on := k.pwm.on.mapFinIdx fun i x _ => if i / 4 = p.val then (d.toList.getD (i % 4) (0, false)).1 else x,
                                 pulseadj := k.pwm.pulseadj + BitVec.ofNat 32 adj,
                                 clampArm := k.pwm.clampArm && !clamp } }
  if clamp && w.clampArm then s3.bankTell b (.fault (.bank b) 0) else s3

/-- PWM_PERIOD_START (R305, R306, R320). -/
def State.periodStart (b : BankId) (s : State) : State :=
  if s.banks[b].clocked then
    let zero := s.banks[b].releaseDue
    let s1 := s.releaseRun b
    let s2 := (s1.each allPos (State.takeTable b)).modBank b fun k => { k with tableNew := 0 }
    let off (p : Nat) : Int := (bankOffset s.part.nBanks (b.val % 6) p : Nat)
    let inj := allPos.any fun p => s2.axes[axisAt b p].obs.injecting
    let s3 := s2.modBank b fun k =>
      let w := k.pwm.nextPeriod off
      { k with pwm := { w with number := if zero then 0 else w.number, injOn := inj,
                               trg := Vector.ofFn fun i : Fin 3 => s2.wB b.val 0x6000 i.val,
                               sel := Vector.ofFn fun i : Fin 4 => s2.wB b.val 0x6001 i.val } }
    s3.each allPos (State.axisPeriod b)
  else s

/-- PWM_PERIOD_START. -/
def execPwmPeriodStart (b : BankId) (s : State) : Host.Outcome State Fault Refusal := .next (s.periodStart b)

/-! ## Trigger points (R373 to R377) -/

/-- Offset of a trigger point from the period centre, none where it is not enabled; whether it is suppressed (R373,
R375). -/
def State.pointOffset (s : State) (b : BankId) (t : BitVec 2) : Option (Int × Bool) :=
  let w := s.banks[b].pwm
  let dly : Int := fieldN (s.bA b.val 0x2200 0) 16 16
  let word := w.trg.toList.getD (t.toNat - 1) 0
  let toff := (word.extractLsb' 0 16).toInt
  if t = 0 then some (0, false)
  else if w.injOn ∧ t = 1 then some (dly, false)
  else if word.getLsbD 31 then some (toff, w.injOn && decide ((toff - dly).natAbs ≤ 192))
  else none

/-- Time of a trigger point from the tick edge, none where it produces no event in the period; and whether the event is
dropped (R373, R374, R376): the bounds of an odd bridge are those of the whole half below it. -/
def State.triggerAt (s : State) (b : BankId) (t : BitVec 2) : Option (Int × Bool) :=
  let w := s.banks[b].pwm
  let half : Int := (w.len / 2 : Nat)
  match s.pointOffset b t with
  | none => none
  | some (o, supp) =>
    if !w.started || decide (o < -half ∨ half ≤ o) then none
    else
      let at_ := w.pstart + half + o
      some (at_, supp || decide (at_ - s.banks[b].lastTrig < 192))

/-! ## Angles and references of a bank (R31, R225, R237, R298) -/

/-- Setpoint in force at a time t after the tick edge, and the interpolated angle there. -/
def State.angleAt (s : State) (b : BankId) (p : Pos) (t : Int) : Word × Setpoint :=
  let k := s.banks[b]
  let span : Int := 24000 * s.units
  let sp := k.sp[p]
  let next := match k.recv with
    | some d => d.sp[p]
    | none => { sp with angle := k.a1[p] + BitVec.ofInt 32 (angleStep sp.vff.toInt span) }
  (interpolate k.a0[p] k.a1[p] next.angle sp.vff next.vff span t, if t < span then sp else next)

/-- Table angle of an axis at a bank angle: displaced by the retard (R225, R298). -/
def ObsBank.tableAngle (ang : Word) (vff : Int) (o : ObsBank) : BitVec 16 :=
  ang.extractLsb' 16 16 - BitVec.ofInt 16 (vff.sign * (o.retard : Int))

/-- Word j of the current table of an axis in its bank (R227, R261). -/
def State.tableWord (s : State) (n : AxisId) (j : Nat) : Word := s.wB (2 * n.val) 0x4100 j

/-- Reference of a phase in mA and its table value, at the angle and setpoint of the next period, with the coefficients in use
since the period began (R228, R229, R230, R266). -/
def State.reference (s : State) (n : AxisId) (phB : Bool) (ang : BitVec 16) (sp : Setpoint) : Int × Int :=
  let a := s.axes[n]
  let th := if phB then ang + 16384 else ang
  let w := tableW (s.tableWord n) th
  (phaseRef (effMag (sp.cur.extractLsb' 16 12).toNat a.obs.lacF) (w * oneStep + harmonicH a.obs.harmUse th), w)

/-- Whether a phase word is in use in this period (R99). -/
def State.wordInUse (s : State) (b : BankId) (ang : Pos → BitVec 16) (key : Nat) : Bool :=
  let n : AxisId := Fin.ofNat 48 (keyUnit key / 2)
  let p := posOf n
  let th := ang p
  decide (bankOf n = b) && s.axes[n].legs.energised &&
    (if keyIdent key = 0x4100 then (tableWords th ++ tableWords (th + 16384)).contains (key % 256)
     else decide (driveMode s.banks[b].pwm.use.drv p = 0))

/-! ## The current loop and the observer at a centre -/

/-- Back-EMF term of a phase in loop units (R251). -/
def ObsBank.emfTerm (c : ObsCfg) (phB : Bool) (vff w : Int) (o : ObsBank) : Int :=
  let seen := decide (o.mode = .emf) && !o.settle
  let obs := (if phB then o.emfB else o.emfA) * loopVolt / 10
  let model := keTerm c.ke vff w
  match c.emfsrc.toNat with
  | 0 => 0
  | 1 => if seen then obs else 0
  | 2 => model
  | _ => if seen then obs else model

/-- Voltage applied to a phase in the period, in loop units (R279, R314). -/
def State.applied (s : State) (b : BankId) (p : Pos) (phB : Bool) (vb : Int) : Int :=
  let w := s.banks[b].pwm
  let n := axisAt b p
  let l := s.axes[n].loop phB
  if driveMode w.use.drv p = 0 then
    let lim := if (s.loopCfg n phB).busff then vb else 400 * loopVolt
    let v := max (-lim) (min lim l.volts)
    if lim = vb then v else v * vb / lim
  else
    let full := 16 * w.use.period
    let c (i : Nat) : Int := (min full ((w.use.codes p).toList.getD i 0) : Nat)
    let i := if phB then 2 else 0
    (c i - c (i + 1)) * vb / (full : Int)

/-- The observer's work at a centre: the retard of this period from the result of the last, then this period's result (R268,
R269, R279, R282, R287, R297; log 73). -/
def State.observe (b : BankId) (p : Pos) (smp : Sample) (vb t : Int) (s : State) : State :=
  let n := axisAt b p
  let c := s.obsCfg n
  let ang := (s.angleAt b p t).1
  let sp := (s.angleAt b p t).2
  let cur (i : Nat) : Int := (smp.results.toList.getD (4 * p.val + i) 0).toInt
  let vA := s.applied b p false vb
  let vB := s.applied b p true vb
  let w := s.banks[b].pwm
  s.modAxis n fun a =>
    let o : ObsBank := a.obs
    let o0 := o.regulate c (sp.cur.getLsbD 3) sp.vff.toInt
    let o1 := o0.estimate c (ang.extractLsb' 16 16) smp.rotor[p] o.pattern vA vB (cur 0) (cur 2) w.len
      (effMag (sp.cur.extractLsb' 16 12).toNat o.lacF)
    let o2 : ObsBank := { o1 with start := if o.pattern then min 8 (o.start + 1) else o.start }
    { a with obs := ((o2.judgeStall c ang).judgeSlip sp.vff.toInt).addRipple }

/-- The phase of an axis at a centre: reference of the next period, measured current, and the loop where it runs (R250,
R256, R314). -/
def State.phaseCentre (b : BankId) (p : Pos) (phB : Bool) (smp : Sample) (vb t : Int) (s : State) : State :=
  let n := axisAt b p
  let w := s.banks[b].pwm
  let a := s.axes[n]
  let q := s.angleAt b p t
  let ref := s.reference n phB (a.obs.tableAngle q.1 q.2.vff.toInt) q.2
  let i := (smp.results.toList.getD (4 * p.val + if phB then 2 else 0) 0).toInt
  let c := s.loopCfg n phB
  if a.legs.energised && decide (driveMode w.use.drv p = 0) then
    let emf := a.obs.emfTerm (s.obsCfg n) phB q.2.vff.toInt ref.2
    s.modAxis n (Axis.modLoop phB fun l => l.run c ref.1 i emf vb w.use.period)
  else
    s.modAxis n (Axis.modLoop phB fun l =>
      { l with integ := 0, volts := 0, delta := 0, iref := if a.legs.energised then ref.1 else 0, imeas := i,
               satRun := 0, openRun := 0, trkRun := 0 })

/-- The four live words of an axis as the bank captures them at a centre, voltages to the nearest 0.1 V (R257, R264). -/
def Axis.capture (a : Axis) : Vector Word 4 :=
  let h (i : Int) : Half := BitVec.ofInt 16 (max (-32768) (min 32767 i))
  let v (l : PhaseLoop) : Half := h (divRound (l.volts * 10) loopVolt.toNat)
  #v[h a.loopA.iref ++ h a.loopA.imeas, h a.loopB.iref ++ h a.loopB.imeas, v a.loopA ++ v a.loopB,
     0#15 ++ BitVec.ofBool (decide (a.obs.lacF < 32768)) ++ BitVec.ofNat 16 a.obs.lacF]

/-- One axis at the centre trigger; without estimates only the retard falls (R268, R270, R297). What this centre restores of the
load-adaptive factor counts from the next period (R247, R269; log 73). -/
def State.axisCentre (b : BankId) (smp : Sample) (vbus t next : Int) (p : Pos) (s : State) : State :=
  let n := axisAt b p
  let vb := vbus * loopVolt / 10
  let s1 := if s.axes[n].legs.energised ∨ s.axes[n].obs.mode = .blind then s.observe b p smp vb t
    else s.modAxis n fun a => { a with obs := { a.obs with retard := a.obs.retard - 64, laract := decide (64 < a.obs.retard) } }
  let s2 := (s1.phaseCentre b p false smp vbus next).phaseCentre b p true smp vbus next
  let s3 := s2.modBank b fun k => { k with cap := k.cap.mapFinIdx fun i x _ => if i = p.val then s2.axes[n].capture else x }
  if s.axes[n].legs.energised ∨ s.axes[n].obs.mode = .blind then
    s3.modAxis n fun a => { a with obs := a.obs.restoreF (s.obsCfg n) ((s.angleAt b p t).2.cur.getLsbD 2) }
  else s3

/-! ## TRIGGER_EVENT -/

/-- Whether a time from the tick edge lies in the check phase of a swap or return, 100 to 400 µs after its operation (R360). -/
def SwapRun.checks (t : Int) (r : SwapRun) : Bool := decide (r.start + 48000 ≤ t ∧ t < r.start + 192000)

/-- Input that the thermal converter takes at the last trigger: the checked output in the check phase of a swap or return
(R360, R372). -/
def Bank.thermalInput (k : Bank) : Nat :=
  match k.swap with
  | some r => if r.checks k.lastTrig then (if r.ret then 11 else if r.second then 10 else 9) else k.kiln.input
  | none => k.kiln.input

/-- Value of a converter as an entry carries it (R371, R372). -/
def Bank.convValue (smp : Sample) (k : Bank) (c : Nat) : Half :=
  let v := smp.results.toList.getD c 0
  if c = 17 then BitVec.ofNat 4 k.thermalInput ++ v.extractLsb' 0 12 else v

/-- The entries of an event, and its sequence number where it places one (R380, R381). -/
def Bank.place (t : BitVec 2) (smp : Sample) (k : Bank) : Bank :=
  let sel := k.pwm.sel.toList.getD t.toNat 0
  let es := ((List.range 18).filter fun c => sel.getLsbD c).map fun c => bankEntry t k.seq c (k.convValue smp c)
  if es = [] then k else { k with entries := k.entries ++ es, seq := k.seq + 1 }

/-- A thermal reading reaches Kiln and the converter goes on to the next input (R372, R446). -/
def Bank.thermal (smp : Sample) (k : Bank) : Bank :=
  if k.thermalInput < 9 then
    { k with kiln := { k.kiln.reading k.kiln.input (smp.results[17].extractLsb' 0 12).toInt with
                         input := (k.kiln.input + 1) % 9 } }
  else k

/-- Step 2 of a release at a trigger, and the isolation of a shorted leg after it (R349). -/
def State.releaseTrigger (b : BankId) (smp : Sample) (p : Pos) (s : State) : State :=
  let n := axisAt b p
  let mA (i : Nat) : Nat := (smp.results.toList.getD (4 * p.val + i) 0).toInt.natAbs
  let l := s.axes[n].legs
  if l.rel ≠ .none then (if mA 0 < 200 ∧ mA 2 < 200 then s.toStep2 n else s)
  else
    let iso (i : Nat) : Bool := l.latch && l.step2 && (l.flt.toList.getD i 0).getLsbD 7 && decide (mA (i / 2 * 2) < 200)
    let m : BitVec 4 := BitVec.ofNat 4 ((List.range 4).foldl (fun a i => a + if iso i then 2 ^ i else 0) 0)
    if m = 0 then s else s.modLegs n fun x => { x with isolLegs := x.isolLegs ||| m }

/-- The trigger event of a point at a time (R371 to R381). The next period is the one that the time base is to start: after an
extension, a bridge, or the first of a new period (R31, R225, R320); the bus comparator is read with it (R355). -/
def State.sampled (b : BankId) (t : BitVec 2) (smp : Sample) (at_ : Int) (s : State) : State :=
  let w := s.banks[b].pwm
  let bus : Int := (smp.results[16].toNat : Nat)
  let s1 := s.modBank b fun k =>
    ({ k with lastTrig := at_, busHi := k.busHi && smp.over440 }.place t smp).thermal smp
  let after := w.nextPeriod fun _ => 0
  let next : Int := after.pstart + (after.len / 2 : Nat)
  let used (p : Pos) : BitVec 16 :=
    s1.axes[axisAt b p].obs.tableAngle (s1.angleAt b p next).1 (s1.angleAt b p next).2.vff.toInt
  let s2 := s1.parityFail b (smp.badWords.filter fun key => phaseKey b key && s1.wordInUse b used key)
  let s3 := if t = 0 then
      (s2.each allPos (State.axisCentre b smp bus at_ next)).modBank b fun k =>
        { k with pwm := { k.pwm with codeP := k.pwm.use.period } }
    else s2
  s3.each allPos (State.releaseTrigger b smp)

/-- TRIGGER_EVENT (R371, R374). -/
def State.trigger (b : BankId) (t : BitVec 2) (smp : Sample) (s : State) : State :=
  if s.banks[b].clocked then
    match s.triggerAt b t with
    | none => s
    | some (at_, dropped) => if dropped then s.bankTell b .trgDrop else s.sampled b t smp at_
  else s

/-- TRIGGER_EVENT. -/
def execTriggerEvent (b : BankId) (point : BitVec 2) (smp : Sample) (s : State) : Host.Outcome State Fault Refusal :=
  .next (s.trigger b point smp)

/-! ## BANK_CAL (R532) -/

/-- BANK_CAL (R531, R532): SERVICE, every axis OFF; the legs are held off from the execution of its operation on. -/
def State.bankCal (m : MbId) (t : Target) (s : State) : State :=
  match t with
  | .bank b =>
    if s.banks[b].view ≠ .service ∨ (allPos.any fun p => decide (s.axes[axisAt b p].eng.st ≠ .off)) then s.err m .state 0
    else (s.queueOp b .cal 1 (some m)).wait m (.cal b)
  | _ => s.err m .target 0

/-- BANK_CAL. -/
def execBankCal (m : MbId) (s : State) : Host.Outcome State Fault Refusal := .next (s.run m 2 0x34e (State.bankCal m))

/-- Largest change of the offset of a current converter, in mA (R532, R545). -/
def largestChange (old new : Vector Half 16) : Half :=
  let d (i : Nat) : Nat := ((new.toList.getD i 0).toInt - (old.toList.getD i 0).toInt).natAbs
  BitVec.ofNat 16 (min 65535 ((List.range 8).foldl (fun a i => max a (d (2 * i))) 0))

/-- BANK_CAL_COMPLETE (R532): the offsets taken over 256 periods; the node learns of them with the next upstream
packet. -/
def execBankCalComplete (b : BankId) (offsets : Vector Half 16) (s : State) : Host.Outcome State Fault Refusal :=
  .next (if s.banks[b].cal then
      (s.modBank b fun k => { k with cal := false, offsets := offsets }).bankTell b
        (.calDone (largestChange s.banks[b].offsets offsets))
    else s)

end Sys2Proof.Machine
end

