-- ==== Sys2Proof/Machine/Sequencer.lean ====
section
/-! DEFINITION. The auxiliary sequencer (12_sampling_and_queues.md R383 to R387, R394), GPIO levels and compare pulses
(06_motion_engine.md R190, 20_pins_and_package.md R570, R571), sampling and bandwidth windows
(19_performance_counters.md R549 to R554). -/
namespace Sys2Proof.Machine

/-! ## The sequencer -/

/-- Slots of a pass (R387). -/
def State.seqn (s : State) : Nat := fieldN (s.pA 0 0x6800 0) 0 6

/-- Trigger of a slot (R384). -/
def State.strg (s : State) (slot : Nat) : Nat := fieldN (s.pA 0 0x6801 slot) 28 2

/-- A trigger that no armed slot takes; AMISS in a tick with a miss that follows a tick without one (R384, R394). -/
def State.auxMiss (s : State) : State :=
  let q := s.auxq
  { s with auxq := { q with dropTick := true } }.raiseIf (!q.dropTick && !q.dropLast) .aux 2

/-- A trigger of kind k while the sequencer runs: the slot that is armed for it converts; where none is, it is missed
(R384). -/
def State.auxTrigger (k : Nat) (s : State) : State :=
  let a := s.auxs
  if !a.running then s
  else if a.waiting ∧ s.strg a.slot = k then { s with auxs := { a with waiting := false, busy := true } }
  else s.auxMiss

/-- AUX_TIMER_TICK (R385). -/
def execAuxTimerTick (s : State) : Host.Outcome State Fault Refusal := .next (s.auxTrigger 1)

/-- AUX_CONVERSION_START (R384): an immediate slot converts at the moment of arming. -/
def execAuxConversionStart (s : State) : Host.Outcome State Fault Refusal :=
  .next (if s.auxs.waiting ∧ s.strg s.auxs.slot = 0 then s.auxTrigger 0 else s)

/-- AUX_PWM_SYNC (R384, R385): a period start or centre of the bank selected, while it is in RUN, SERVICE or SAFE. -/
def State.auxSync (b : BankId) (centre : Bool) (s : State) : State :=
  let c := s.pA 0 0x6800 0
  if b.val = fieldN c 8 3 ∧ centre = decide (fieldN c 7 1 = 1) ∧ s.linked b then s.auxTrigger 3 else s

/-- AUX_PWM_SYNC. -/
def execAuxPwmSync (b : BankId) (centre : Bool) (s : State) : Host.Outcome State Fault Refusal := .next (s.auxSync b centre)

/-- Entries of a slot (R379, R380, R384). -/
def auxEntries (kind slot : Nat) (pass : Byte) (code0 code1 : Half) : List Word :=
  (if kind = 1 then [] else [auxEntry false slot pass code0]) ++ (if kind = 0 then [] else [auxEntry true slot pass code1])

/-- The slot after a conversion; slot 0 of the next pass takes the staged values (R384, R387, R96). -/
def State.auxNext (s : State) : State :=
  let a := s.auxs
  if a.slot + 1 < s.seqn then { s with auxs := { a with slot := a.slot + 1, waiting := true, busy := false } }
  else
    let s1 := { s with auxs := { a with slot := 0, busy := false } }.auxApply
    let on := decide (fieldN (s1.pA 0 0x6800 0) 6 1 = 1)
    { s1 with auxs := { s1.auxs with running := on, waiting := on, pass := if on then a.pass + 1 else a.pass } }

/-- AUX_CONVERSION_DONE (R386): the entries enter the auxiliary queue and the next slot is armed. -/
def State.auxDone (code0 code1 : Half) (s : State) : State :=
  let a := s.auxs
  if a.busy then
    let kind := fieldN (s.pA 0 0x6801 a.slot) 30 2
    let r := s.auxq.load 256 (fun i => s.wA 0 0x6901 i) (auxEntries kind a.slot a.pass code0 code1)
    ({ s with auxq := r.1 }.each r.2 fun f t => t.raise .aux f).auxNext
  else s

/-- AUX_CONVERSION_DONE. -/
def execAuxConversionDone (code0 code1 : Half) (s : State) : Host.Outcome State Fault Refusal :=
  .next (s.auxDone code0 code1)

/-! ## GPIO -/

/-- GPIO_EDGE (R384, R570): the filtered level of a pin changes; a selected edge of `PIN` is a pin trigger. -/
def State.gpioEdge (p : PinId) (level : Bool) (s : State) : State :=
  if s.gpio.lvl.getLsbD p.val = level then s
  else
    let bit : BitVec 16 := 1#16 <<< p.val
    let s1 := { s with gpio := { s.gpio with lvl := if level then s.gpio.lvl ||| bit else s.gpio.lvl &&& ~~~bit } }
    let c := s.pA 0 0x6800 0
    if p.val = fieldN c 12 4 ∧ level = decide (fieldN c 11 1 = 0) then s1.auxTrigger 2 else s1

/-- GPIO_EDGE. -/
def execGpioEdge (p : PinId) (level : Bool) (s : State) : Host.Outcome State Fault Refusal := .next (s.gpioEdge p level)

/-- The scheduled pulse of a list that starts first. -/
def firstPulse (l : List Pulse) : Option Pulse :=
  l.foldl (fun o q => match o with
    | none => some q
    | some r => if q.start < r.start then some q else some r) none

/-- The pulse of a pin whose start falls in the tick that runs (R190). -/
def State.pulseDue (s : State) (p : PinId) : Option Pulse :=
  (firstPulse s.gpio.due[p]).filter fun q => decide (q.start < 24000 * s.units)

/-- COMPARE_PULSE_START (R190): a pulse that a fire has scheduled; one that runs is extended. -/
def execComparePulseStart (p : PinId) (s : State) : Host.Outcome State Fault Refusal :=
  .next (match s.pulseDue p with
    | none => s
    | some q =>
      let e := if s.gpio.pulse.getLsbD p.val then max s.gpio.ends[p] (q.start + q.width) else q.start + q.width
      { s with gpio := { s.gpio with due := s.gpio.due.set p.val (s.gpio.due[p].erase q),
                                     pulse := s.gpio.pulse ||| (1#16 <<< p.val), ends := s.gpio.ends.set p.val e } })

/-- COMPARE_PULSE_END (R190): the pulse ends in the tick that runs, and none that is scheduled extends it. -/
def execComparePulseEnd (p : PinId) (s : State) : Host.Outcome State Fault Refusal :=
  .next (if s.gpio.pulse.getLsbD p.val ∧ s.gpio.ends[p] ≤ 24000 * s.units ∧
      s.gpio.due[p].all fun q => decide (s.gpio.ends[p] < q.start) then
      { s with gpio := { s.gpio with pulse := s.gpio.pulse &&& ~~~(1#16 <<< p.val) } } else s)

/-- Pull of a pin: up, down or none (R566, R569). -/
def State.pinPull (s : State) (p : PinId) : Option Bool :=
  if !s.powered then none
  else match fieldN (s.pA 0 0x1702 0) (2 * p.val) 2 with
    | 1 => some true
    | 2 => some false
    | _ => none

/-- Time for which a new level of a pin must stand, in 240 MHz samples (R569). -/
def State.pinFilter (s : State) (p : PinId) : Nat :=
  match fieldN (s.pA 0 0x1701 0) (2 * p.val) 2 with
  | 0 => 2
  | 1 => 240
  | 2 => 2400
  | _ => 24000

/-- Level that a pin drives, none where it drives nothing (R563, R570, R571). -/
def State.pinDrive (s : State) (p : PinId) : Option Bool :=
  if !s.powered then none
  else if s.mem.csHeld.getLsbD p.val then some false
  else match s.pinFn p.val with
    | 1 => some (s.gpio.out.getLsbD p.val)
    | 2 => if s.gpio.out.getLsbD p.val then none else some false
    | 3 => some (s.gpio.pulse.getLsbD p.val)
    | 4 => some (!s.gpio.pulse.getLsbD p.val)
    | 5 => some ((s.mem.frame.map fun f => f.pin) ≠ some p.val)
    | _ => none

/-! ## Sampling and bandwidth -/

/-- The five trace words of a record (R550). -/
def traceRecord (recno : Byte) (addr enc latency stamp : Word) : List Word :=
  let lat : BitVec 16 := BitVec.ofNat 16 (min 65535 latency.toNat)
  [0xe0#8 ++ recno ++ lat,
   0xe1#8 ++ addr.extractLsb' 0 24,
   0xe2#8 ++ addr.extractLsb' 24 8 ++ enc.extractLsb' 0 16,
   0xe3#8 ++ enc.extractLsb' 16 16 ++ stamp.extractLsb' 0 8,
   0xe4#8 ++ stamp.extractLsb' 8 24]

/-- TREN: applied, and not cleared by a write that has landed (R552). -/
def State.tren (s : State) : Bool := decide (fieldN (s.pA 0 0x1600 0) 1 1 = 1 ∧ fieldN (s.pS 0 0x1600 0) 1 1 = 1)

/-- A record enters the buffer whole, or is dropped (R551, R552). -/
def Perf.insert (tren : Bool) (addr enc latency stamp : Word) (p : Perf) : Perf :=
  let q := { p with recno := p.recno + 1 }
  if !tren then q
  else if p.fifo.length + 5 ≤ 640 then { q with fifo := p.fifo ++ traceRecord p.recno addr enc latency stamp }
  else { q with tdrop := if p.tdrop = 0xffff then 0xffff else p.tdrop + 1 }

/-- The down-counter is loaded with SINT and a jitter of SJIT bits, whose generator the spec does not state (R549; log
4). -/
def State.loadInterval (s : State) : State :=
  let j := (Config.freeWord s.free).toNat % 2 ^ fieldN (s.pA 0 0x1600 0) 8 4
  { s with perf := { s.perf with interval := some (s.pA 0 0x1601 0 + j) }, free := s.free + 1 }

/-- The down-counter at a tick edge: loaded where sampling begins, without a value where it is off (R549). -/
def State.intervalStep (s : State) : State :=
  if fieldN (s.pA 0 0x1600 0) 0 1 = 0 then { s with perf := { s.perf with interval := none } }
  else if s.boot = 1 ∧ s.perf.interval = none then s.loadInterval
  else s

/-- SAMPLE_INTERVAL_EXPIRE (R549 to R551): the next instruction to retire, sampled where it lies in the partition
selected. -/
def State.sample (user : Bool) (addr enc latency stamp : Word) (s : State) : State :=
  let c := s.pA 0 0x1600 0
  let part := fieldN c 4 2
  if fieldN c 0 1 = 1 ∧ s.boot = 1 ∧ (part = 0 ∨ (part = 1 ∧ user) ∨ (part = 2 ∧ ¬ user)) then
    { s with perf := s.perf.insert s.tren addr enc latency stamp }.loadInterval
  else s

/-- SAMPLE_INTERVAL_EXPIRE. -/
def execSampleIntervalExpire (user : Bool) (addr enc : Word) (latency stamp : Word) (s : State) :
    Host.Outcome State Fault Refusal :=
  .next (s.sample user addr enc latency stamp)

/-- BANDWIDTH_WINDOW_END (R554). -/
def execBandwidthWindowEnd (s : State) : Host.Outcome State Fault Refusal :=
  .next (if s.perf.window then
      { s with perf := { s.perf with result := s.perf.count, count := Vector.replicate 15 0, bwseq := s.perf.bwseq + 1 } }
    else s)

end Sys2Proof.Machine
end

