-- ==== Sys2Proof/Machine/Tick.lean ====
section
/-! DEFINITION. The tick edge: every step of R192 over all axes, the homing run, the current, the compares, and the latch of
D(k) for every bank (06_motion_engine.md R164 to R193, 07_followers_and_streams.md R194 to R217, 08_microsteps_and_current.md
R234 to R246, R257, 09_load_angle_observer.md R285 to R296, 01_node_and_banks.md R28, R33, R35). -/
namespace Sys2Proof.Machine

/-- Changes the engine of an axis. -/
def State.modEng (n : AxisId) (f : Engine → Engine) (s : State) : State :=
  s.modAxis n fun a => { a with eng := f a.eng }

/-- Changes the node side of an axis's observer. -/
def State.modObn (n : AxisId) (f : ObsNode → ObsNode) (s : State) : State :=
  s.modAxis n fun a => { a with obn := f a.obn }

/-! ## Before the engines (R12, R36, R48, R209, R554) -/

/-- Compare pulses count from the new edge (R190). -/
def Gpio.tick (clocks : Nat) (g : Gpio) : Gpio :=
  { g with due := g.due.map fun l => l.map fun (q : Pulse) => { q with start := q.start - clocks },
           ends := g.ends.map fun e => e - clocks }

/-- What the edge does to the node's timers: tick number, clock, ticks without an upstream packet, times that count in
ticks, the drops of the tick that ended; then a hand-over takes place (R48, R36, R374, R410, R507, R538). -/
def State.edgeStart (pins : BitVec 24) (s : State) : State :=
  let s1 : State :=
    { s with tick := s.tick + 1, enPins := 0#24 ++ pins,
             auxq := { s.auxq with dropLast := s.auxq.dropTick, dropTick := false },
             mem := { s.mem with busy := s.mem.busy.map fun o => o.map fun (p : ProgOp) => { p with t := p.t + s.units } },
             entry := { s.entry with palloc := s.entry.pbud, chopHeld := s.chopen,
                                     chopT := if s.entry.chopon then s.entry.chopT + s.units else 0 },
             fn := { s.fn with minT := s.fn.minT + s.units },
             nv := { s.nv with trialT := s.nv.trialT + s.units },
             gpio := s.gpio.tick (24000 * s.units),
             edgeT := s.edgeT + s.units, clk := 0,
             fbs := s.fbs.map fun (f : FbChan) => { f with line := f.moved, moved := 0 },
             banks := s.banks.map fun (k : Bank) => { k with noUp := if k.seen then 0 else k.noUp + 1, seen := false } }
  s1.clockTick.handOverEdge

/-- Fetches that failed are tried again (R209). -/
def State.retryFetch (n : AxisId) (s : State) : State :=
  if (s.axes[n].str.feed.map fun f => f.retry) = some true then s.requestFetch n else s

/-- `BWEN` as applied (R554). -/
def State.bwen (s : State) : Bool := decide (fieldN (s.pA 0 0x1602 0) 31 1 = 1)

/-! ## Enable (R181, R355, R357) -/

/-- The pulse of an automatic retry on the virtual enable bit: cleared at one edge, set at the next; dropped where the
bit is 0 (R357). Answers whether it is dropped. -/
def Axis.retryStep (a : Axis) : Axis × Bool :=
  if a.legn.pulse then
    ({ a with legn := { a.legn with pulse := false, retryEdge := true }, eng := { a.eng with venNext := true } }, false)
  else if a.legn.retryDue then
    if a.eng.venNext then
      ({ a with legn := { a.legn with retryDue := false, pulse := true, retryEdge := false },
                eng := { a.eng with venNext := false } }, false)
    else ({ a with legn := { a.legn with retryDue := false, retryEdge := false } }, true)
  else ({ a with legn := { a.legn with retryEdge := false } }, false)

/-- A re-arm goes ahead of every operation but those sent or sent again (R355, R35). -/
def placeOp (e : OpEntry) (l : List OpEntry) : List OpEntry :=
  let first (x : OpEntry) : Bool := x.re || decide (x.slots = 0)
  l.filter first ++ e :: l.filter fun x => !first x

/-- Queues the re-arm of an axis for D(k) (R355). -/
def State.queueRearm (n : AxisId) (host : Bool) (s : State) : State :=
  { s.modBank (bankOf n) (fun k => { k with ops := placeOp ⟨.rearm (posOf n) host, 1, none, none, s.opSeq, false, []⟩ k.ops })
    with opSeq := s.opSeq + 1 }

/-- Samples the enable of an axis; a rising edge re-arms (R181, R355). -/
def State.enableStep (n : AxisId) (s : State) : State :=
  let b := bankOf n
  let c := s.axisCfg n
  let r := s.axes[n].retryStep
  let s1 := s.modAxis n fun _ => r.1
  let s2 := if r.2 ∧ s1.linked b then s1.queueOp b (.dropRetry (posOf n)) 1 none else s1
  let high := if n.val < 24 then s.enPins.getLsbD n.val else c.enpol
  let s3 := s2.modEng n (Engine.sampleEnable c high)
  let a := s3.axes[n]
  let pinRose := a.eng.pin && !s.axes[n].eng.pin
  if a.eng.rose ∧ s3.linked b then s3.queueRearm n (!a.legn.retryEdge || pinRose) else s3

/-! ## Staged values apply (R92, R93) -/

/-- Whether staged values of an axis, of the identifiers of a list, differ from the applied ones. -/
def State.changes (s : State) (n : AxisId) (l : List Nat) : Bool :=
  l.any fun i => decide (s.pS n.val i 0 ≠ s.pA n.val i 0) || decide (s.pS n.val i 1 ≠ s.pA n.val i 1)

/-- The stream block of an axis takes `SFLTEN` and `SFLTRX` (R218, R465). -/
def State.streamMask (n : AxisId) (s : State) : State :=
  s.modBlock (.stream n) fun f =>
    { f with fen := s.wA n.val 0x3310 0, codes := f.codes.set 0 ((s.wA n.val 0x3311 0).extractLsb' 0 24) }

/-- Every TICK value applies (R93); a chopper that is no longer enabled stops (R428). -/
def State.applyTick (s : State) : State :=
  let s1 := { s with nodeP := s.nodeP.applyWhere fun k => decide (keyAcc k = Access.tick) }
  let s2 := s1.each (s1.presentAxes.filter fun n => s.changes n [0x3310, 0x3311]) State.streamMask
  { s2 with entry := { s2.entry with chopon := s2.entry.chopon && s2.chopen } }

/-- A HOME that applies at this edge moves at the `HVEL` applied here (R292, R93). -/
def Engine.seekMove (hvel : Int) (o : ObsNode) (e : Engine) : Engine :=
  if o.hpend.isSome ∧ e.staged.isSome then { e with staged := some (.move ⟨.velocity hvel, ⟨0, 0, 0, 0⟩⟩) } else e

/-- Redefinition and trigger of an axis, and the ticks since its seek cruises (R177, R176, R292). -/
def State.triggerStep (n : AxisId) (s : State) : State :=
  let c := s.axisCfg n
  s.modAxis n fun a =>
    let j := a.obn.hcruise.map (· + 1)
    let armed := match j with
      | some k => decide (2 ≤ k)
      | none => false
    { a with eng := ((a.eng.applySetPos).applyTrigger c).seekMove (sgn (s.pA n.val 0x3600 0)) a.obn, obn := { a.obn with hcruise := j, harmed := a.obn.harmed || armed } }

/-! ## Stalls and service entries (R285 to R287, R530) -/

/-- The action on a stall that begins (R285, R286). -/
def State.stallStep (n : AxisId) (s : State) : State :=
  let e := s.axes[n].eng
  let o := s.axes[n].obn
  let cfg := s.pA n.val 0x3500 0
  if e.st = .off then s
  else if o.hstate = .seek then (if o.harmed then s.modEng n fun e => { e with freezeReq := true } else s)
  else if fieldN cfg 2 1 = 0 then s
  else
    let moving := decide (e.st = .ramp ∨ e.st = .stopping ∨ e.st = .follow)
    let s1 := s.modEng n fun e =>
      { e with posunk := true, freezeReq := e.freezeReq || (moving && decide (fieldN cfg 0 2 = 1)),
               stopReq := if moving ∧ fieldN cfg 0 2 = 2 then some true else e.stopReq }
    s1.raise (.axis n) 23

/-- What the record checked in the last tick asks for (R285, R287). -/
def State.recordStep (n : AxisId) (s : State) : State :=
  let o := s.axes[n].obn
  let s1 := s.modObn n fun o => { o with stallDue := false, slipDue := false }
  let s2 := if o.slipDue then (s1.modEng n fun e => { e with posunk := true }).raise (.axis n) 22 else s1
  if o.stallDue then s2.stallStep n else s2

/-- An entry into SERVICE: moving axes make a quick stop; axes at rest enter OFF where the bank is de-energised
(R530). -/
def Engine.serviceStop (off : Bool) (e : Engine) : Engine :=
  if e.st = .ramp ∨ e.st = .stopping ∨ e.st = .follow then
    { e with stopReq := some true, offReq := e.offReq || (off && e.atRest) }
  else { e with offReq := e.offReq || (off && decide (e.st ≠ .off)) }

/-- The axes of a bank that is to enter SERVICE (R530). -/
def State.serviceStep (n : AxisId) (s : State) : State :=
  let k := s.banks[bankOf n].svcRun
  if k = 0 then s else s.modEng n (Engine.serviceStop (decide (k = 2)))

/-! ## Transitions (R179, R194, R195) -/

/-- The motion of the tick that ended: profiles go on to this edge (R164, R167); a follower is carried at its reported
velocity, for the case that it leaves FOLLOW here (R198; log 43). Answers whether the speed cap acted. -/
def Engine.reach (units : Nat) (e : Engine) : Engine × Bool :=
  let n := units * unitsPerTick
  match e.st with
  | .ramp => let q := Engine.holdCap n e (e.advance n); (q.1.finish, q.2)
  | .stopping => let q := Engine.holdCap n e (e.advance n); (q.1.finish, q.2)
  | .follow => ({ e with pos := wrapPos (e.pos + divRound (e.vel * units) 20000) }, false)
  | _ => (e, false)

/-- The source's own coordinate of an axis in gearing or behind the step input (R194, R201, R216): positions are those
of the edge before. -/
def State.sourceCoord (old s : State) (n : AxisId) (mode : BitVec 2) : Int :=
  let f := s.followCfg n
  if mode = 1 then s.axes[n].fol.sdacc
  else if mode = 3 ∧ f.gkindFb = false then old.axes[sameSide n f.gnumSrc].eng.ipos
  else 0

/-- Fresh captures at a position (R194, R217); a feedback source starts a new coordinate at its present track count
(R407). -/
def State.capture (old : State) (n : AxisId) (s : State) : State :=
  let c := s.axisCfg n
  let f := s.followCfg n
  let ch : FbId := Fin.ofNat 8 f.gnumSrc
  let x := State.sourceCoord old s n c.mode
  s.modAxis n fun a =>
    { a with fol := { a.fol.captureAt a.eng.pos x with gAcc := 0, gLast := s.fbs[ch].trk } }

/-- Enters FOLLOW at rest (R179, R194); the configured limits govern it (R196). -/
def Engine.toFollow (c : AxisCfg) (e : Engine) : Engine :=
  { e.still with st := .follow, move := none, attgt := false, slsat := false, limits := c.lim }

/-- What a new `MODE` does at its edge (R179, R195). -/
def Engine.modeStep (c : AxisCfg) (e : Engine) : Engine :=
  if e.st = .standby ∧ c.mode ≠ 0 then e.toFollow c
  else if e.st = .follow ∧ c.mode = 0 then (if e.vel = 0 then e.toStandby else e.brake c .command false)
  else e

/-- A soft limit that applies while the axis moves outside it: the axis stops at `DEC` (R186). -/
def Engine.stopOutside (c : AxisCfg) (e : Engine) : Engine :=
  if e.st = .ramp ∧ c.slen ∧ (c.below e.pos ∨ c.above e.pos) then
    { Engine.replan c ⟨.velocity 0, ⟨0, 0, 0, 0⟩⟩ e with velmv := e.velmv, target := e.target, side := 0 }
  else e

/-- The engine after the transitions of an edge, whether ENLOSS is raised and whether a follower starts afresh. `chg`
that a limit applies new, `lim` that a soft limit does. -/
def Engine.transit (c : AxisCfg) (run on wasEn chg lim : Bool) (units : Nat) (e : Engine) : Engine × Bool × Bool :=
  let mw := e.modeWrite && decide (e.st ≠ .off)
  let r := Engine.transition1 c run on wasEn { e with modeWrite := false, limWrite := lim, cfgWrite := false }
  let free := r.1.staged.isNone
  let q := r.1.reach units
  let e2 := Engine.transition2 c run (wasEn && !e.en) (chg || q.2) q.1
  let e3 := if lim ∧ free then e2.stopOutside c else e2
  let e4 := if mw then e3.modeStep c else e3
  let kept := decide (e.st = .follow ∧ e4.st = .follow)
  let left := decide (e.st = .follow ∧ e4.st ≠ .follow)
  ({ e4 with pos := if kept then e.pos else e4.pos, slsat := e4.slsat && !left },
   r.2, decide (e4.st = .follow) && (mw || !kept))

/-- The transitions of one axis (R179, R180, R211, R217). `old` is the state before the edge. -/
def State.transitStep (old : State) (n : AxisId) (s : State) : State :=
  let c := s.axisCfg n
  let k := s.banks[bankOf n]
  let run := decide (k.view = .run) && !k.left
  let on := decide (k.view = .run ∨ k.view = .service) && !k.left
  let e := s.axes[n].eng
  let lim := e.limWrite || old.changes n [0x3100, 0x3101, 0x3102]
  let chg := lim || e.cfgWrite || old.changes n [0x3000, 0x3001, 0x3002, 0x3003, 0x3004]
  let r := e.transit c run on old.axes[n].eng.en chg lim s.units
  let leaves := decide (e.st = .follow) && (decide (r.1.st ≠ .follow) || r.2.2)
  let s1 := s.modAxis n fun a => { a with eng := r.1, str := if leaves then a.str.leave.1 else a.str }
  let s2 := s1.raiseIf r.2.1 (.axis n) 1
  let gear := decide (r.1.st = .follow) && decide (c.mode = 3) && old.changes n [0x3301, 0x3302, 0x3303]
  if r.2.2 || gear then State.capture old n s2 else s2

/-! ## The follow path (R196, R201, R204, R216) -/

/-- Source position of a follower at this edge: the follow path and the stream after it, and the faults of the stream
block. -/
def State.source (old : State) (n : AxisId) (s : State) : Follow × Stream × Int × List Nat :=
  let c := s.axisCfg n
  let fc := s.followCfg n
  let a := s.axes[n]
  if c.mode = 1 then
    let f : Follow := { a.fol with hist := (a.fol.sdacc :: a.fol.hist).take 256 }
    (f, a.str, f.sdSource fc, [])
  else if c.mode = 2 then
    let r := Stream.tick c.lim s.units s.tick a.eng.pos a.fol.s a.str
    let grp := decide (a.str.st ≠ r.1.st ∧ r.1.st = some .group)
    (a.fol, r.1, r.2.s, (if r.2.underrun then [3] else []) ++ (if grp then [0] else []))
  else if c.mode = 3 then
    if fc.gkindFb then
      let ch := s.fbs[(Fin.ofNat 8 fc.gnumSrc : FbId)]
      let r := a.fol.fbSample ch.trk ch.valid
      (r.1, a.str, r.1.gearSource fc r.1.gAcc, if r.2 then [7] else [])
    else (a.fol, a.str, a.fol.gearSource fc (State.sourceCoord old s n 3), [])
  else (a.fol, a.str, a.fol.s, [])

/-- One tick of an axis in FOLLOW (R184, R185, R196, R197). -/
def State.followStep (old : State) (n : AxisId) (s : State) : State :=
  let q := State.source old n s
  let r := followPath (s.axisCfg n) (s.followCfg n) s.units q.2.2.1 s.axes[n].eng q.1
  let s1 := s.modAxis n fun a => { a with eng := r.1, fol := r.2.1, str := q.2.1 }
  let s2 := s1.each q.2.2.2 fun b t => t.raise (.stream n) b
  ((s2.raiseIf r.2.2.1 (.axis n) 0).raiseIf r.2.2.2.1 (.axis n) 2).raiseIf r.2.2.2.2 (.stream n) 4

/-- The soft limits of an axis that does not follow (R183, R185, R186). -/
def State.limitStep (n : AxisId) (s : State) : State :=
  let r := s.axes[n].eng.softLimits (s.axisCfg n)
  ((s.modEng n fun _ => r.1).raiseIf r.2.1 (.axis n) 0).raiseIf r.2.2 (.axis n) 2

/-- The integrate step and the soft limits of one axis (R192). -/
def State.moveStep (old : State) (n : AxisId) (s : State) : State :=
  (if s.axes[n].eng.st = .follow then State.followStep old n s else s.limitStep n).modEng n
    fun e => { e with limWrite := false }

/-- A member of a running start group that ends early: its stream was in RUN and is in UNDERRUN or STOPPED (R215). -/
def endedEarly (t u : Stream) : Bool :=
  decide (t.st = some .run) && decide (u.st = some .underrun ∨ u.st = some .stopped) && decide (u.group ≠ 0)

/-- Members of start groups that are to enter GROUP at the next edge (R215). -/
def State.groupStepOf (old s : State) : State :=
  let gone := (s.presentAxes.filter fun n => endedEarly old.axes[n].str s.axes[n].str).map fun n => s.axes[n].str.group
  s.each s.presentAxes fun n t =>
    let a := t.axes[n]
    if a.str.st = some .run ∧ gone.contains a.str.group ∧ (t.followCfg n).grpstop then
      t.modAxis n fun a => { a with str := { a.str with groupDue := true } }
    else t

/-! ## Homing (R292 to R296) -/

/-- Homing ends in FAIL with a cause (R296). -/
def State.homeFail (n : AxisId) (cause : BitVec 4) (s : State) : State :=
  (s.modObn n fun o => { o with hstate := .fail, hcause := cause, hcruise := none, harmed := false }).raise (.axis n) 21

/-- HOME applies: the seek begins, `up` in the positive direction (R292). -/
def ObsNode.seek (probe up : Bool) (pos : Int) (o : ObsNode) : ObsNode :=
  { o with hstate := .seek, hcause := 0, probe := probe, hstart := pos, hpend := none, hcruise := none, harmed := false,
           hup := up, hgo := false }

/-- Contact: the axis is frozen, the node reads `STLATCH` (R292). -/
def State.homeContact (n : AxisId) (s : State) : State :=
  let s1 := s.modAxis n fun a =>
    { a with eng := { a.eng with posunk := true },
             obn := { a.obn with hstate := .contact, hfrozen := a.eng.pos, hanchor := a.obn.sent.getD 2 a.eng.pos,
                                 hwait := 0, hread := none, hgo := false, hcruise := none, harmed := false } }
  if s1.linked (bankOf n) then s1.queueOp (bankOf n) (.live 0x3f51 n.val 0 2) 2 none else s1

/-- A seek stops by itself (R296). -/
def State.homeStop (n : AxisId) (cause : BitVec 4) (s : State) : State :=
  (s.modEng n (Engine.brake (s.axisCfg n) .command false)).homeFail n cause

/-- One edge of SEEK (R292, R296). `contact` that a stall reached the armed seek, `cmd` that another command applies,
`armed` that the seek was armed before this edge. -/
def State.seekStep (n : AxisId) (contact cmd armed : Bool) (s : State) : State :=
  let e := s.axes[n].eng
  let o := s.axes[n].obn
  if contact ∧ e.st = .frozen then s.homeContact n
  else if e.slsat then s.homeFail n 2
  else if cmd ∨ e.st ≠ .ramp then s.homeFail n 4
  else if (s.pA n.val 0x3604 0 : Int) * oneStep ≤ ((e.pos - o.hstart).natAbs : Int) then s.homeStop n 1
  else if armed ∧ o.ra.extractLsb' 0 2 = 0 then s.homeStop n 3
  else if o.hcruise = none ∧ segNow (s.axisCfg n) e = 4 then s.modObn n fun o => { o with hcruise := some 0 }
  else s

/-- The position moves by a redefinition (R293 to R295). -/
def Engine.shift (d : Int) (e : Engine) : Engine :=
  { e with pos := wrapPos (e.pos + d * oneStep), prevPos := wrapPos (e.prevPos + d * oneStep) }

/-- The corrected engine and node state at the BACKOFF edge: `HOMEPOS`, the whole cycles, the move to the backoff target
under the configured limits (R292, R293). -/
def Axis.backoff (c : AxisCfg) (hback : Int) (ang lam : Word) (a : Axis) : Axis :=
  let up := a.obn.hup
  let home := homePos (unwrapAngle ang a.obn.hanchor) lam.toInt
  let n := cycleCorrection home a.obn.hfrozen up
  let p := wrapPos (a.eng.pos + 4096 * n * oneStep)
  let e : Engine := { a.eng with pos := p, prevPos := p }
  let goal := wrap48 (if up then home - hback else home + hback)
  { a with eng := e.start c ⟨.target goal, ⟨0, 0, 0, 0⟩⟩,
           obn := { a.obn with hstate := .backoff, homepos := home, hread := none, hgo := false } }

/-- One edge of CONTACT; the edge after HOMING_BACKOFF is the BACKOFF edge (R292, R296). -/
def State.contactStep (n : AxisId) (cmd : Bool) (s : State) : State :=
  let o := s.axes[n].obn
  if cmd ∨ s.axes[n].eng.st ≠ .frozen then s.homeFail n 4
  else match o.hgo, o.hread with
    | true, some q => s.modAxis n (Axis.backoff (s.axisCfg n) (s.pA n.val 0x3602 0) q.1 q.2)
    | _, _ => s.modObn n fun o => { o with hwait := o.hwait + 1 }

/-- DONE: the homing shift, unless it was a probe (R292, R294). -/
def State.homeDone (n : AxisId) (s : State) : State :=
  let hpos := pairInt (s.wA n.val 0x3603 0) (s.wA n.val 0x3603 1)
  s.modAxis n fun a =>
    let d := if a.obn.probe then 0 else homingShift hpos a.obn.homepos
    let e := a.eng.shift d
    { a with eng := { e with posunk := false, target := e.target + d },
             obn := { a.obn with hstate := .done, homepos := a.obn.homepos + d } }

/-- One edge of BACKOFF (R292, R296). -/
def State.backoffStep (n : AxisId) (cmd : Bool) (s : State) : State :=
  let e := s.axes[n].eng
  if cmd then s.homeFail n 4
  else if e.st = .ramp then s
  else if e.st = .standby ∧ e.attgt then s.homeDone n
  else s.homeFail n 4

/-- Whether the seek of a HOME that waits begins: its move has applied, if only to be held at a soft limit. -/
def ObsNode.begins (e : Engine) (o : ObsNode) : Option Bool :=
  if e.st = .ramp ∨ (e.st = .standby ∧ e.slsat) then o.hpend else none

/-- Homing of one axis at an edge (R292). `mid` is the state after triggers and stall reactions. -/
def State.homeStep (old mid : State) (n : AxisId) (s : State) : State :=
  let o := s.axes[n].obn
  let m := mid.axes[n].eng
  let cmd := (m.staged.isSome && o.hpend.isNone) || m.stopReq.isSome
  match o.hpend with
  | some _ =>
    match o.begins s.axes[n].eng with
    | some p =>
      let s1 := s.modObn n (ObsNode.seek p (decide (0 < sgn (s.pA n.val 0x3600 0))) s.axes[n].eng.pos)
      if s.axes[n].eng.st = .ramp then s1 else s1.homeFail n 2
    | none => s.modObn n fun o => { o with hpend := none }
  | none =>
    match o.hstate with
    | .seek => s.seekStep n (m.freezeReq && old.axes[n].obn.stallDue) cmd old.axes[n].obn.harmed
    | .contact => s.contactStep n cmd
    | .backoff => s.backoffStep n cmd
    | _ => s

/-! ## Current (R234 to R246) -/

/-- Sum of the applied budgets (R242). -/
def State.budgetSum (s : State) : Nat := (s.presentAxes.map fun n => s.pA n.val 0x3405 0).sum

/-- Budget target of an axis: its budget, or the scaled one (R240, R242). -/
def budgetTarget (ialloc sum b : Nat) : Nat := if ialloc < sum then min b (b * ialloc / sum) else b

/-- Kiln factor of an axis: 1 where no temperature is known (R234, R455). -/
def State.kilnOf (s : State) (n : AxisId) : Nat :=
  match summaryTemp s.kiln.ksum[bankOf n] (posOf n) with
  | some t => kilnFactor t
  | none => 32768

/-- The state current of a seek (R292). -/
def State.homeCurrent (s : State) (n : AxisId) : Option Nat :=
  let h := s.axes[n].obn.hstate
  if (h = .seek ∨ h = .contact) ∧ s.axes[n].eng.st ≠ .off then some (s.pA n.val 0x3601 0) else none

/-- The current magnitude of one axis (R234), and BSCALED where scaling begins to lower its target (R242). -/
def State.currentStep (old : State) (ialloc sum : Nat) (n : AxisId) (s : State) : State :=
  let c := s.curCfg n
  let target := budgetTarget ialloc sum c.ibudget
  let scaled := decide (target < c.ibudget)
  let e := s.axes[n].eng
  let entered := decide (e.st = .standby ∧ old.axes[n].eng.st ≠ .standby)
  let k := s.axes[n].cur.tick c s.units target (s.kilnOf n) 32768 (decide (1 ≤ s.kiln.cone n)) e
    (segNow (s.axisCfg n) e) entered (s.homeCurrent n)
  (s.modAxis n fun a => { a with cur := { k with bscale := scaled } }).raiseIf (scaled && !s.axes[n].cur.bscale) (.axis n) 14

/-! ## Compare (R187 to R190, R193) -/

/-- Length in 50 µs of the tick that begins at an edge (R12). -/
def State.nextUnits (s : State) : Nat := if s.pair.tbanks = 0 then 1 else 2

/-- Start of the pin pulse of a fire in PWM clocks from its edge: 1 µs, or with `LAGALIGN` the instant at which the
bank's angle passes the value; `p`, `q` the positions before and after (R190). -/
def fireStart (align : Bool) (t : Nat) (f : Fire) (p q : Int) : Nat :=
  if !align then 480
  else if f.rest then 2 * t
  else t + (divRound (t * (f.value * oneStep - p).natAbs) (q - p).natAbs).toNat

/-- A fire: a pin pulse, a trigger for the next edge (R190, R193). `p` is the position before. -/
def State.fire (n : AxisId) (f : Fire) (p : Int) (s : State) : State :=
  let w := s.pA n.val 0x3110 0
  let pin : PinId := Fin.ofNat 16 (fieldN w 8 4)
  let q : Pulse := ⟨fireStart (decide (fieldN w 2 1 = 1)) (24000 * s.nextUnits) f p s.axes[n].eng.pos, 480 * fieldN w 24 8⟩
  let s1 := if fieldN w 0 1 = 1 ∧ n.val < 24 then
      { s with gpio := { s.gpio with due := s.gpio.due.set pin.val (s.gpio.due[pin] ++ [q]) } } else s
  if fieldN w 1 1 = 1 then s1.modEng (sameSide n (fieldN w 16 5)) fun e => { e with trig := true } else s1

/-- The compare of one axis (R187, R188, R189); ARMED of the axis page takes its value of the edge (R191). -/
def State.compareStep (n : AxisId) (s : State) : State :=
  let a := s.axes[n]
  let p := a.eng.prevPos.fdiv oneStep
  let q := a.eng.ipos
  let r := a.cmp.tick p q (decide (140737488355328 < (q - p).natAbs)) a.eng.vel.sign
  let s1 := s.modAxis n fun a =>
    { a with cmp := r.1, eng := { a.eng with prevPos := a.eng.pos, armShown := a.eng.armed.isSome } }
  match r.2 with
  | some f => s1.fire n f a.eng.prevPos
  | none => s1

/-! ## What follows the latch of a position (R257, R290, R358, R516, R518) -/

/-- The run of ticks in which the axis moves and the observer is blind; BLINDMV reports it (R290). -/
def State.blindStep (n : AxisId) (s : State) : State :=
  s.modAxis n fun a =>
    let run := if a.eng.vel ≠ 0 ∧ a.obn.ra.extractLsb' 0 2 = 0 then a.obn.blindRun + s.units else 0
    { a with obn := { a.obn with blindRun := run, blindUp := a.obn.blindUp && decide (run ≠ 0) } }

/-- Time for which the axis has been energised, the positions sent, the live stream values of this edge, and the ring entry of an axis that entered STANDBY
or OFF (R358, R293, R219, R516). -/
def State.recordAxis (old : State) (n : AxisId) (s : State) : State :=
  let e := s.axes[n].eng
  let live := decide (e.st ≠ .off) && s.linked (bankOf n)
  let s1 := s.modAxis n fun a =>
    { a with legn := { a.legn with energT := if live then a.legn.energT + s.units else 0 },
             obn := { a.obn with sent := (a.eng.pos :: a.obn.sent).take 4 },
             slive := a.liveNow (s.followCfg n).squota }
  if n.val < 24 ∧ e.st ≠ old.axes[n].eng.st ∧ (e.st = .standby ∨ e.st = .off) then
    { s1 with nv := { s1.nv with ringDue := s1.nv.ringDue ++ [(n, decide (e.st = .off), e.posunk, e.ipos)] } }
  else s1

/-- Bytes 0x00 to 0x97 of keep RAM (R518). -/
def State.keepBytes (s : State) : List Byte :=
  let ax (n : Nat) : Axis := s.axes[(Fin.ofNat 48 n : AxisId)]
  let flags (f : Axis → Bool) : Nat := (bitsOf 24 fun n => f (ax n)).toNat
  ((List.range 24).flatMap fun n => bytesOf 6 (word64 (ax n).eng.ipos).toNat)
    ++ bytesOf 3 (flags fun a => a.eng.posunk) ++ bytesOf 3 (flags fun a => decide (a.eng.st = .off))
    ++ bytesOf 2 s.tick

/-- The per-tick write of keep RAM, once positions have been restored (R518). -/
def State.keepWrite (s : State) : State :=
  if s.nv.restored then { s with keep := { s.keep with ram := putBytes 0 s.keepBytes s.keep.ram } } else s

/-! ## The latch of D(k) (R28, R33, R35, R102, R257) -/

/-- Slots that an operation takes of the room left: TABLE_DEFAULT spreads over packets, every other goes whole (R147,
R267). -/
def OpEntry.take (room : Nat) (e : OpEntry) : Nat :=
  match e.op with
  | .table _ => min room e.slots
  | _ => if e.slots ≤ room then e.slots else 0

/-- The next slots of an operation go out in the packet of a tick. -/
def OpEntry.send (tick n : Nat) (e : OpEntry) : OpEntry :=
  { e with slots := e.slots - n, sentAt := if n = e.slots then some tick else e.sentAt,
           parts := if n = 0 then e.parts else e.parts ++ [(tick, n)] }

/-- Hands slots to operations in their order, none passing one that waits: the operations after it, those whose last
slot is sent, and the slots left (R33, R94). -/
def fillSlots (tick : Nat) : Nat → List OpEntry → List OpEntry × List OpEntry × Nat
  | room, [] => ([], [], room)
  | room, e :: r =>
    if e.slots = 0 then
      let q := fillSlots tick room r
      (e :: q.1, q.2)
    else if e.take room = e.slots then
      let x := e.send tick e.slots
      let q := fillSlots tick (room - e.slots) r
      (x :: q.1, x :: q.2.1, q.2.2)
    else (e.send tick (e.take room) :: r, [], 0)

/-- Flags of the current word (R28, R236, R297). -/
def State.currentWord (s : State) (n : AxisId) : Word :=
  let a := s.axes[n]
  let e := a.eng
  let h := a.obn.hstate
  let lar := decide (fieldN (s.pA n.val 0x3500 0) 4 1 = 1) && decide (e.st = .ramp ∨ e.st = .stopping ∨ e.st = .follow)
    && decide (h ≠ .seek ∧ h ≠ .contact)
  0#4 ++ BitVec.ofNat 12 a.cur.imag ++ 0#12 ++ BitVec.ofBool lar ++ BitVec.ofBool a.cur.loadPermit
    ++ BitVec.ofBool (decide (e.st = .standby)) ++ BitVec.ofBool (decide (e.st ≠ .off))

/-- The setpoint record of an axis (R28, R30). -/
def State.setpoint (s : State) (n : AxisId) : Setpoint :=
  ⟨angleOf s.axes[n].eng.pos, s.currentWord n, BitVec.ofInt 32 s.axes[n].eng.velQ⟩

/-- Observer injection enables of a bank (R28, R272). -/
def State.injects (s : State) (b : BankId) : BitVec 4 :=
  let drv := s.wA b.val 0x2001 0
  let on (p : Pos) : Bool := decide (fieldN (s.pA (axisAt b p).val 0x3500 0) 3 1 = 1) && decide (driveMode drv p = 0)
  BitVec.ofBool (on 3) ++ BitVec.ofBool (on 2) ++ BitVec.ofBool (on 1) ++ BitVec.ofBool (on 0)

/-- Whether every PERIOD write before a BATCH has been sent whole (R95). -/
def periodsSent (tag : Nat) (l : List OpEntry) : Bool :=
  l.all fun e => !(e.op.isPeriod && decide (e.tag < tag)) || decide (e.slots = 0)

/-- A packet as it fills: the operations queued after it, those that it carries, and the slots left. -/
abbrev Fill := List OpEntry × List OpEntry × Nat

/-- Puts the five Proof reads ahead of every other operation, in the tick after the start of a scan (R102). -/
def State.addProofReads (b : BankId) (s : State) : State :=
  if s.tick % 20 = 1 ∧ s.linked b then
    { s.modBank b (fun k => { k with ops := ⟨.proof, 5, none, none, s.opSeq, false, []⟩ :: k.ops }) with opSeq := s.opSeq + 1 }
  else s

/-- A read of low priority takes slots of the packet that are left free (R257). -/
def State.freeRead (op : RegOp) (q : State × Fill) : State × Fill :=
  let e : OpEntry := ⟨op, 0, some q.1.tick, none, q.1.opSeq, false, [(q.1.tick, op.slots)]⟩
  ({ q.1 with opSeq := q.1.opSeq + 1 }, q.2.1 ++ [e], q.2.2.1 ++ [e], q.2.2.2 - op.slots)

/-- The reads of low priority of a packet: the live values of the bank's next axis, then coefficients that are due, while
slots are free (R232, R257). -/
def State.addScan (b : BankId) (q : State × Fill) : State × Fill :=
  if q.1.linked b = false then q
  else
    let p := q.1.banks[b].scanPos
    let q1 := if 4 ≤ q.2.2.2 then
        State.freeRead (.live 0x22 (axisAt b p).val 0 4) (q.1.modBank b fun k => { k with scanPos := p + 1 }, q.2)
      else q
    allPos.foldl (fun (r : State × Fill) p =>
      if r.1.banks[b].harmDue.getLsbD p.val ∧ 2 ≤ r.2.2.2 then
        State.freeRead (.live 0x3f40 (axisAt b p).val 0 2)
          (r.1.modBank b fun k => { k with harmDue := k.harmDue &&& ~~~(1#4 <<< p.val) }, r.2)
      else r) q1

/-- The service request of a packet: one that the bank held goes again; a new one waits while one is unacknowledged
(R35, R154). -/
def Bank.serviceToSend (k : Bank) : BitVec 2 :=
  match k.sentSvc with
  | some q => if k.resumeDue then q.2 else 0
  | none => k.svcReq

/-- Latches D(k) for a bank and begins to send it (R28, R35, R95, R102, R154, R317, R318, R326). -/
def State.latch (b : BankId) (s : State) : State :=
  let s0 := s.addProofReads b
  let r := State.addScan b (s0, fillSlots s.tick 16 s0.banks[b].ops)
  let k := r.1.banks[b]
  let due := k.batches.filter fun t => periodsSent t r.2.1
  let svc := k.serviceToSend
  let d : DPacket :=
    { tick := BitVec.ofNat 16 s.tick, ack := k.lastUp, sp := Vector.ofFn fun p : Fin 4 => s.setpoint (axisAt b p),
      batch := !due.isEmpty || (k.resumeDue && k.sentBatch.isSome), svc := svc, safe := k.softReq || k.renewed,
      resume := k.resumeDue, inj := s.injects b, ops := r.2.2.1 }
  let fresh := decide (k.sentSvc = none) && decide (svc ≠ 0)
  let s1 := r.1.modBank b fun k =>
    { k with ops := r.2.1, dpkt := some d, batches := k.batches.filter fun t => !periodsSent t r.2.1,
             sentBatch := if d.batch then some s.tick else k.sentBatch,
             svcReq := if fresh then 0 else k.svcReq, sentSvc := if svc ≠ 0 then some (s.tick, svc) else k.sentSvc,
             svcRun := if fresh then (if svc = 3 then 0 else svc) else k.svcRun,
             sentSoft := if k.softReq ∧ k.sentSoft = none then some s.tick else k.sentSoft,
             resumeDue := false, resumeAt := if k.resumeDue then s.tick else k.resumeAt }
  { s1 with batchTick := if d.batch then BitVec.ofNat 16 s.tick else s1.batchTick }.countBytes (portDn b) 188

/-! ## TICK_EDGE -/

/-- The engines' steps of R192, every axis finishing a step before any starts the next, with Kiln, stalls, homing,
current and compares in their places. -/
def State.engineSteps (old s : State) : State :=
  let ax := s.presentAxes
  let s1 := (s.each ax State.enableStep).applyTick
  let s2 := (s1.each ax State.triggerStep).kilnTick
  let s3 := (s2.each ax State.recordStep).each ax State.serviceStep
  let s4 := (s3.each ax (State.transitStep old)).each ax (State.moveStep old)
  let s5 := (State.groupStepOf s3 s4).each ax (State.homeStep old s3)
  let s6 := s5.each ax (State.currentStep old s5.ialloc s5.budgetSum)
  s6.each ax State.compareStep

/-- TICK_EDGE (R192): nothing without power or a reference clock. -/
def State.tickEdge (pins : BitVec 24) (s : State) : State :=
  if s.powered ∧ s.refOk then
    let ran := s.bwen
    let s1 := (s.edgeStart pins).each s.presentAxes State.retryFetch
    let s2 := State.engineSteps s s1
    let s3 := (s2.each s2.presentAxes (State.recordAxis s)).each s2.presentAxes State.blindStep
    let s4 := s3.keepWrite.each (List.finRange 4) State.emuEdge
    let s5 := if ran && s4.bwen && !s4.perf.window then { s4 with perf := { s4.perf with window := true } } else s4
    let s6 := s5.intervalStep.each (s5.presentBanks.filter s5.sendsTo) State.latch
    { s6.settle with elapsed := s.units, units := s6.nextUnits }
  else s

/-- TICK_EDGE. -/
def execTickEdge (pins : BitVec 24) (s : State) : Host.Outcome State Fault Refusal := .next (s.tickEdge pins)

end Sys2Proof.Machine
end

