-- ==== Sys2Proof/Machine/Dispatch.lean ====
section
/-! DEFINITION. The meaning of every command: one arm per constructor. -/
namespace Sys2Proof.Machine

/-- What a command does to everything but the queue. -/
def exec (i : Instr) (s : State) : Host.Outcome State Fault Refusal :=
  match i with
  | .hostWrite slot word cut => Sys2Proof.Machine.execHostWrite slot word cut s
  | .pageWrite nth word cut => Sys2Proof.Machine.execPageWrite nth word cut s
  | .hlcfgWrite word => Sys2Proof.Machine.execHlcfgWrite word s
  | .compatWrite word => Sys2Proof.Machine.execCompatWrite word s
  | .hlsyncRead sent => Sys2Proof.Machine.execHlsyncRead sent s
  | .wideLowRead slot sent load => Sys2Proof.Machine.execWideLowRead slot sent load s
  | .wideLowWrite slot word => Sys2Proof.Machine.execWideLowWrite slot word s
  | .wideHighWrite slot word => Sys2Proof.Machine.execWideHighWrite slot word s
  | .sframeLowHalfRead slot sent => Sys2Proof.Machine.execSframeLowHalfRead slot sent s
  | .queuePop sent collide => Sys2Proof.Machine.execQueuePop sent collide s
  | .queuePeek collide => Sys2Proof.Machine.execQueuePeek collide s
  | .tracePop sent collide => Sys2Proof.Machine.execTracePop sent collide s
  | .streamWindowWrite nth word => Sys2Proof.Machine.execStreamWindowWrite nth word s
  | .windowStatusRead nth sent => Sys2Proof.Machine.execWindowStatusRead nth sent s
  | .linkReset => Sys2Proof.Machine.execLinkReset s
  | .mailboxRing m word => Sys2Proof.Machine.execMailboxRing m word s
  | .batchWrite word => Sys2Proof.Machine.execBatchWrite word s
  | .nerrRelease word => Sys2Proof.Machine.execNerrRelease word s
  | .faultAcknowledge slot word => Sys2Proof.Machine.execFaultAcknowledge slot word s
  | .frxWrite slot word => Sys2Proof.Machine.execFrxWrite slot word s
  | .nrstPulse cmpt => Sys2Proof.Machine.execNrstPulse cmpt s
  | .powerOnResetEnd cmpt => Sys2Proof.Machine.execPowerOnResetEnd cmpt s
  | .nodePowerLoss => Sys2Proof.Machine.execNodePowerLoss s
  | .vauxChangeover above => Sys2Proof.Machine.execVauxChangeover above s
  | .starterBoot imgA imgB imgExt => Sys2Proof.Machine.execStarterBoot imgA imgB imgExt s
  | .firmwareStart => Sys2Proof.Machine.execFirmwareStart s
  | .referenceLoss cmpt => Sys2Proof.Machine.execReferenceLoss cmpt s
  | .referenceReturn => Sys2Proof.Machine.execReferenceReturn s
  | .debugHalt => Sys2Proof.Machine.execDebugHalt s
  | .debugResume => Sys2Proof.Machine.execDebugResume s
  | .nop m => Sys2Proof.Machine.execNop m s
  | .identify m => Sys2Proof.Machine.execIdentify m s
  | .getParam m => Sys2Proof.Machine.execGetParam m s
  | .setParam m => Sys2Proof.Machine.execSetParam m s
  | .getActive m => Sys2Proof.Machine.execGetActive m s
  | .commit m => Sys2Proof.Machine.execCommit m s
  | .store m => Sys2Proof.Machine.execStore m s
  | .fence m => Sys2Proof.Machine.execFence m s
  | .enable m => Sys2Proof.Machine.execEnable m s
  | .service m => Sys2Proof.Machine.execService m s
  | .resetBlock m => Sys2Proof.Machine.execResetBlock m s
  | .streamOpen m => Sys2Proof.Machine.execStreamOpen m s
  | .streamClose m => Sys2Proof.Machine.execStreamClose m s
  | .sIdent m => Sys2Proof.Machine.execSIdent m s
  | .sGet m => Sys2Proof.Machine.execSGet m s
  | .sSet m => Sys2Proof.Machine.execSSet m s
  | .sCommit m => Sys2Proof.Machine.execSCommit m s
  | .sStore m => Sys2Proof.Machine.execSStore m s
  | .sEnable m => Sys2Proof.Machine.execSEnable m s
  | .sMove m => Sys2Proof.Machine.execSMove m s
  | .sVelocity m => Sys2Proof.Machine.execSVelocity m s
  | .sStop m => Sys2Proof.Machine.execSStop m s
  | .sReset m => Sys2Proof.Machine.execSReset m s
  | .moveTo m => Sys2Proof.Machine.execMoveTo m s
  | .moveBy m => Sys2Proof.Machine.execMoveBy m s
  | .velocity m => Sys2Proof.Machine.execVelocity m s
  | .stop m => Sys2Proof.Machine.execStop m s
  | .setPosition m => Sys2Proof.Machine.execSetPosition m s
  | .streamStart m => Sys2Proof.Machine.execStreamStart m s
  | .streamFlush m => Sys2Proof.Machine.execStreamFlush m s
  | .streamAck m => Sys2Proof.Machine.execStreamAck m s
  | .harmClear m => Sys2Proof.Machine.execHarmClear m s
  | .harmSet m => Sys2Proof.Machine.execHarmSet m s
  | .tableDefault m => Sys2Proof.Machine.execTableDefault m s
  | .home m => Sys2Proof.Machine.execHome m s
  | .safeForce m => Sys2Proof.Machine.execSafeForce m s
  | .safeRelease m => Sys2Proof.Machine.execSafeRelease m s
  | .spareSwap m => Sys2Proof.Machine.execSpareSwap m s
  | .spareReturn m => Sys2Proof.Machine.execSpareReturn m s
  | .queueFlush m => Sys2Proof.Machine.execQueueFlush m s
  | .fbSet m => Sys2Proof.Machine.execFbSet m s
  | .fbXref m => Sys2Proof.Machine.execFbXref m s
  | .entryRestart m => Sys2Proof.Machine.execEntryRestart m s
  | .busDischarge m => Sys2Proof.Machine.execBusDischarge m s
  | .kilnRestore m => Sys2Proof.Machine.execKilnRestore m s
  | .faultLog m => Sys2Proof.Machine.execFaultLog m s
  | .faultTest m => Sys2Proof.Machine.execFaultTest m s
  | .memXfer m => Sys2Proof.Machine.execMemXfer m s
  | .xbufPut m => Sys2Proof.Machine.execXbufPut m s
  | .xbufGet m => Sys2Proof.Machine.execXbufGet m s
  | .memProg m => Sys2Proof.Machine.execMemProg m s
  | .memErase m => Sys2Proof.Machine.execMemErase m s
  | .fwInfo m => Sys2Proof.Machine.execFwInfo m s
  | .fwBegin m verified => Sys2Proof.Machine.execFwBegin m verified s
  | .fwWrite m verified => Sys2Proof.Machine.execFwWrite m verified s
  | .fwFetch m => Sys2Proof.Machine.execFwFetch m s
  | .fwVerify m check verified => Sys2Proof.Machine.execFwVerify m check verified s
  | .fwSwap m verified => Sys2Proof.Machine.execFwSwap m verified s
  | .fwConfirm m verified => Sys2Proof.Machine.execFwConfirm m verified s
  | .bootCfg m verified => Sys2Proof.Machine.execBootCfg m verified s
  | .nvClear m verified => Sys2Proof.Machine.execNvClear m verified s
  | .poslogRead m => Sys2Proof.Machine.execPoslogRead m s
  | .keepRead m => Sys2Proof.Machine.execKeepRead m s
  | .fuseBlow m => Sys2Proof.Machine.execFuseBlow m s
  | .pairHandover m => Sys2Proof.Machine.execPairHandover m s
  | .pairRelease m => Sys2Proof.Machine.execPairRelease m s
  | .bankCal m => Sys2Proof.Machine.execBankCal m s
  | .bankCalComplete b offsets => Sys2Proof.Machine.execBankCalComplete b offsets s
  | .tickEdge enPins => Sys2Proof.Machine.execTickEdge enPins s
  | .homingBackoff n => Sys2Proof.Machine.execHomingBackoff n s
  | .blindmv n => Sys2Proof.Machine.execBlindmv n s
  | .holdDelayExpire n => Sys2Proof.Machine.execHoldDelayExpire n s
  | .i2tEmpty n => Sys2Proof.Machine.execI2tEmpty n s
  | .i2tRefilled n => Sys2Proof.Machine.execI2tRefilled n s
  | .triesReset n => Sys2Proof.Machine.execTriesReset n s
  | .proofScan upsets => Sys2Proof.Machine.execProofScan upsets s
  | .harmonicCopyRefresh => Sys2Proof.Machine.execHarmonicCopyRefresh s
  | .poslogEntryWrite verified => Sys2Proof.Machine.execPoslogEntryWrite verified s
  | .downstreamPacketReceive b crcOk => Sys2Proof.Machine.execDownstreamPacketReceive b crcOk s
  | .upstreamPacketCheck b crcOk => Sys2Proof.Machine.execUpstreamPacketCheck b crcOk s
  | .bankTickEdge b => Sys2Proof.Machine.execBankTickEdge b s
  | .bankLinkLost b => Sys2Proof.Machine.execBankLinkLost b s
  | .nodeLinkLost b => Sys2Proof.Machine.execNodeLinkLost b s
  | .recoveredClockLoss b => Sys2Proof.Machine.execRecoveredClockLoss b s
  | .bankRelock b => Sys2Proof.Machine.execBankRelock b s
  | .bankReinitialise b => Sys2Proof.Machine.execBankReinitialise b s
  | .orphanDecelEnd b => Sys2Proof.Machine.execOrphanDecelEnd b s
  | .bankSupplyUp b => Sys2Proof.Machine.execBankSupplyUp b s
  | .bankSupplyDown b => Sys2Proof.Machine.execBankSupplyDown b s
  | .bankLinkUp b => Sys2Proof.Machine.execBankLinkUp b s
  | .pwmClockLoss b => Sys2Proof.Machine.execPwmClockLoss b s
  | .pwmPeriodStart b => Sys2Proof.Machine.execPwmPeriodStart b s
  | .triggerEvent b point smp => Sys2Proof.Machine.execTriggerEvent b point smp s
  | .parityScan b badWords => Sys2Proof.Machine.execParityScan b badWords s
  | .phaseSaturation n phB => Sys2Proof.Machine.execPhaseSaturation n phB s
  | .openPhase n phB => Sys2Proof.Machine.execOpenPhase n phB s
  | .trackingError n phB => Sys2Proof.Machine.execTrackingError n phB s
  | .desaturation n leg high blocks => Sys2Proof.Machine.execDesaturation n leg high blocks s
  | .overcurrent n leg blocks => Sys2Proof.Machine.execOvercurrent n leg blocks s
  | .gateSupplyUv n leg high blocks => Sys2Proof.Machine.execGateSupplyUv n leg high blocks s
  | .interlock n leg => Sys2Proof.Machine.execInterlock n leg s
  | .busOvervoltage b => Sys2Proof.Machine.execBusOvervoltage b s
  | .driverRailUv b => Sys2Proof.Machine.execDriverRailUv b s
  | .releaseTimeout n => Sys2Proof.Machine.execReleaseTimeout n s
  | .retryWaitExpire n => Sys2Proof.Machine.execRetryWaitExpire n s
  | .spareSwapComplete b checkOk seriesOk => Sys2Proof.Machine.execSpareSwapComplete b checkOk seriesOk s
  | .serviceEntry b => Sys2Proof.Machine.execServiceEntry b s
  | .safeInputAssert stop b => Sys2Proof.Machine.execSafeInputAssert stop b s
  | .safeInputRelease stop b => Sys2Proof.Machine.execSafeInputRelease stop b s
  | .mainsHalfCycle rms => Sys2Proof.Machine.execMainsHalfCycle rms s
  | .budgetUpdate pin => Sys2Proof.Machine.execBudgetUpdate pin s
  | .mainsLoss => Sys2Proof.Machine.execMainsLoss s
  | .mainsLow => Sys2Proof.Machine.execMainsLow s
  | .mainsHighRecover => Sys2Proof.Machine.execMainsHighRecover s
  | .mainsFreq => Sys2Proof.Machine.execMainsFreq s
  | .mainsReturn => Sys2Proof.Machine.execMainsReturn s
  | .prechargeStart => Sys2Proof.Machine.execPrechargeStart s
  | .capacitanceCheck rise => Sys2Proof.Machine.execCapacitanceCheck rise s
  | .inrushClose => Sys2Proof.Machine.execInrushClose s
  | .entryRun testI bus => Sys2Proof.Machine.execEntryRun testI bus s
  | .prechargeTimeout late => Sys2Proof.Machine.execPrechargeTimeout late s
  | .refusalExpire => Sys2Proof.Machine.execRefusalExpire s
  | .overloadEmpty => Sys2Proof.Machine.execOverloadEmpty s
  | .overloadRefilled => Sys2Proof.Machine.execOverloadRefilled s
  | .chopperSwitch on => Sys2Proof.Machine.execChopperSwitch on s
  | .choplong => Sys2Proof.Machine.execChoplong s
  | .pfcOvervoltage => Sys2Proof.Machine.execPfcOvervoltage s
  | .busLow => Sys2Proof.Machine.execBusLow s
  | .auxConverterSwitch up => Sys2Proof.Machine.execAuxConverterSwitch up s
  | .activeDischargeStart => Sys2Proof.Machine.execActiveDischargeStart s
  | .dischargeEnd => Sys2Proof.Machine.execDischargeEnd s
  | .dischargeAccountEmpty => Sys2Proof.Machine.execDischargeAccountEmpty s
  | .dischargeResume => Sys2Proof.Machine.execDischargeResume s
  | .outputCurrentLimit s5v => Sys2Proof.Machine.execOutputCurrentLimit s5v s
  | .kntcMeasure temp plausible vkeep => Sys2Proof.Machine.execKntcMeasure temp plausible vkeep s
  | .vkeepLoss => Sys2Proof.Machine.execVkeepLoss s
  | .sensorBroken b input => Sys2Proof.Machine.execSensorBroken b input s
  | .dieSensorRead reading => Sys2Proof.Machine.execDieSensorRead reading s
  | .blockResetReaction => Sys2Proof.Machine.execBlockResetReaction s
  | .nodeResetReaction cmpt => Sys2Proof.Machine.execNodeResetReaction cmpt s
  | .nmiEntry => Sys2Proof.Machine.execNmiEntry s
  | .nerrMinExpire => Sys2Proof.Machine.execNerrMinExpire s
  | .transferStart => Sys2Proof.Machine.execTransferStart s
  | .transferEnd rx holds verified => Sys2Proof.Machine.execTransferEnd rx holds verified s
  | .windowStore offset data => Sys2Proof.Machine.execWindowStore offset data s
  | .windowRead offset => Sys2Proof.Machine.execWindowRead offset s
  | .writeBufferFlush => Sys2Proof.Machine.execWriteBufferFlush s
  | .statusPoll => Sys2Proof.Machine.execStatusPoll s
  | .operationTimeout => Sys2Proof.Machine.execOperationTimeout s
  | .streamFetch n => Sys2Proof.Machine.execStreamFetch n s
  | .fetchFail n => Sys2Proof.Machine.execFetchFail n s
  | .swapPause => Sys2Proof.Machine.execSwapPause s
  | .swapHandover => Sys2Proof.Machine.execSwapHandover s
  | .swapTimeout => Sys2Proof.Machine.execSwapTimeout s
  | .trialTimeout => Sys2Proof.Machine.execTrialTimeout s
  | .heartbeatSend => Sys2Proof.Machine.execHeartbeatSend s
  | .heartbeatReceive boot class4 tick axes => Sys2Proof.Machine.execHeartbeatReceive boot class4 tick axes s
  | .heartbeatIntervalEnd silent => Sys2Proof.Machine.execHeartbeatIntervalEnd silent s
  | .mirroredSetReceive layout records => Sys2Proof.Machine.execMirroredSetReceive layout records s
  | .fbTransition n a b z clock => Sys2Proof.Machine.execFbTransition n a b z clock s
  | .indexEvent n => Sys2Proof.Machine.execIndexEvent n s
  | .serialWordRequest n => Sys2Proof.Machine.execSerialWordRequest n s
  | .serialWordEnd n bits => Sys2Proof.Machine.execSerialWordEnd n bits s
  | .serialWordTimeout n => Sys2Proof.Machine.execSerialWordTimeout n s
  | .fbStandstill n => Sys2Proof.Machine.execFbStandstill n s
  | .emulatorStep at_ => Sys2Proof.Machine.execEmulatorStep at_ s
  | .stepEdge n rising dirHigh fast => Sys2Proof.Machine.execStepEdge n rising dirHigh fast s
  | .gpioEdge p level => Sys2Proof.Machine.execGpioEdge p level s
  | .comparePulseStart p => Sys2Proof.Machine.execComparePulseStart p s
  | .comparePulseEnd p => Sys2Proof.Machine.execComparePulseEnd p s
  | .auxTimerTick => Sys2Proof.Machine.execAuxTimerTick s
  | .auxConversionStart => Sys2Proof.Machine.execAuxConversionStart s
  | .auxConversionDone code0 code1 => Sys2Proof.Machine.execAuxConversionDone code0 code1 s
  | .sampleIntervalExpire user addr enc latency stamp => Sys2Proof.Machine.execSampleIntervalExpire user addr enc latency stamp s
  | .bandwidthWindowEnd => Sys2Proof.Machine.execBandwidthWindowEnd s
  | .writeLands page => Sys2Proof.Machine.execWriteLands page s
  | .overrunRead slot sent => Sys2Proof.Machine.execOverrunRead slot sent s
  | .privilegedIndexRead index => Sys2Proof.Machine.execPrivilegedIndexRead index s
  | .auxPwmSync b centre => Sys2Proof.Machine.execAuxPwmSync b centre s
  | .handOverReceive values axes => Sys2Proof.Machine.execHandOverReceive values axes s
  | .storeComplete verified => Sys2Proof.Machine.execStoreComplete verified s
  | .dischargeReaches60V => Sys2Proof.Machine.execDischargeReaches60V s
  | .pwmClockReturn b => Sys2Proof.Machine.execPwmClockReturn b s
  | .gateSupplyRecover b leg => Sys2Proof.Machine.execGateSupplyRecover b leg s

end Sys2Proof.Machine
end

