-- ==== Sys2Proof/Safety.lean ====
section
/-! DEFINITION. What the statements ask of a state: the canonical form of its stores, the bounds of its buffers, and what
a safe run is. -/
namespace Sys2Proof.Machine

/-- A store of parameter values is canonical: keys strictly rising, no value at its default (R91). -/
def Params.wf (p : Params) : Bool := cellsWf keyDefault 0 p.applied && cellsWf keyDefault 0 p.staged

/-- A memory of bytes is canonical: addresses strictly rising, no byte equal to what an unlisted address reads as. -/
def Memory.wf (d : Byte) (m : List Host.Cell) : Bool := cellsWf (fun _ => d) 0 m

/-- Every addressed memory and every parameter store of the node and its banks is canonical. -/
def State.canonical (s : State) : Bool :=
  s.nodeP.wf && s.bankP.wf && Memory.wf 0 s.keep.ram && Memory.wf 0 s.mem.xbuf && Memory.wf 0xff s.mem.wbuf
    && Memory.wf 0 s.nv.slots[0].bytes && Memory.wf 0 s.nv.slots[1].bytes

/-- No taken command waits for its block or for `XBUF` to be free (R155, R496). -/
def State.noReset (s : State) : Bool :=
  allMbs.all fun k => decide (s.mbx[k].phase ≠ .waiting .resetPend ∧ s.mbx[k].phase ≠ .waiting .xbuf)

/-- A command of mailbox m ends at once: it has not ended, and was not taken before a debug halt that still holds the
processor (R120). -/
def State.endsNow (s : State) (m : MbId) : Bool :=
  decide (s.mbx[m].phase ≠ .idle) && !(s.debugHalted && s.mbx[m].taken)

/-- The mailbox holds the named command for the named target, it is taken now, and its block is not being reset (R112,
R139, R155). -/
def State.takes (s : State) (m : MbId) (abi op : Nat) (t : Target) : Bool :=
  s.due m abi op && decide (s.target? m = some t) && !s.resetting m && s.noReset

/-- t is s, with mailboxes that were rung with a header in error completed (R115), and with other byte counts (R553). -/
def State.Beside (s t : State) : Prop :=
  t = { s with mbx := t.mbx, perf := { s.perf with count := t.perf.count } } ∧
    ∀ k : MbId, s.mbx[k].phase ≠ .rung → t.mbx[k] = s.mbx[k]

/-- The command in mailbox m completes with a state, response words, and an effect `u` on everything else (R109,
R114). -/
def State.Completes (s : State) (m : MbId) (st : BitVec 2) (ws : List Word) (u t : State) : Prop :=
  t.mbx[m] = s.mbx[m].finish st ws ∧
  t = { u with mbx := t.mbx, perf := { u.perf with count := t.perf.count } } ∧
    ∀ k : MbId, k ≠ m → s.mbx[k].phase ≠ .rung → t.mbx[k] = s.mbx[k]

/-- The command in mailbox m is taken and waits for something, with an effect `u` on everything else (R113, R116). -/
def State.Pends (s : State) (m : MbId) (w : Wait) (u t : State) : Prop :=
  t.mbx[m] = { s.mbx[m] with phase := .waiting w } ∧
  t = { u with mbx := t.mbx, perf := { u.perf with count := t.perf.count } } ∧
    ∀ k : MbId, k ≠ m → s.mbx[k].phase ≠ .rung → t.mbx[k] = s.mbx[k]

/-- The error word of a refused command: its code with a DETAIL (R109). -/
def errWords (e : ECode) (detail : Nat) : List Word := [BitVec.ofNat 16 detail ++ e.val]

/-- A bit of a block's status. -/
def State.statusBit (s : State) (i : BlockId) (b : Nat) : Bool := (s.block i).status.getLsbD b

/-- t is u but for what a raise may reach: fault blocks, the node's fault registers, commands that complete HALTED,
runs that a halt ends, requests to the axes and banks, the event record and the boot state (R469 to R477). -/
def State.FaultFrame (u t : State) : Prop :=
  t = { u with blocks := t.blocks, fn := t.fn, mbx := t.mbx, perf := { u.perf with count := t.perf.count },
               commits := t.commits, axes := t.axes, banks := t.banks, keep := { u.keep with ram := t.keep.ram },
               boot := t.boot, haltC4 := t.haltC4, mem := { u.mem with runs := t.mem.runs },
               nv := { u.nv with stores := t.nv.stores, sets := t.nv.sets, swap := t.nv.swap } } ∧
  (∀ n : AxisId, t.axes[n] = { u.axes[n] with eng := { u.axes[n].eng with offReq := t.axes[n].eng.offReq } }) ∧
  (∀ b : BankId, t.banks[b] = { u.banks[b] with softReq := t.banks[b].softReq }) ∧
  ∀ (j : BlockId) (k : Nat), u.statusBit j k = true → t.statusBit j k = true

/-- t is u after the fault at a status bit of a block was raised: the bit is set, and nothing else but what a raise
may reach has changed (R468, R469). -/
def State.RaisedAt (u : State) (i : BlockId) (bit : Nat) (t : State) : Prop :=
  t.statusBit i bit = true ∧ u.FaultFrame t

/-- A run of the model is safe as long as no step stops it. -/
def outcomeGoes {σ φ ρ : Type} : Host.Outcome σ φ ρ → Bool
  | .next _ => true
  | .fault _ => false
  | .refused _ => false

end Sys2Proof.Machine
end

