-- ==== Sys2Proof/Certificates/Slice0/Obligations.lean ====
section
/-! DEFINITION. The statements for the provers. Mailbox commands are judged where `State.takes` says that the engine takes
them now for a present target of an accepted kind (R112, R115, R139); events where the spec's own condition holds. -/
open Sys2Proof Sys2Proof.Machine

/-! ## Mailbox commands -/

/-- NOP and FENCE complete with no words (R144, R125), FENCE not before an earlier command has completed (R125, R152);
IDENTIFY and S_IDENT answer the words of R145 and R134. Nothing else changes. -/
def Obligations.SystemCommandsComplete : Prop :=
  (∀ (s : State) (m : MbId) (t : Target), s.takes m 2 0x000 t = true →
    ∃ u, exec (.nop m) s = .next u ∧ s.Completes m 2 [] s u) ∧
  (∀ (s : State) (m : MbId) (t : Target), s.takes m 2 0x007 t = true →
    ∃ u, exec (.fence m) s = .next u ∧ s.Completes m 2 [] s u) ∧
  (∀ (s : State) (m k : MbId), s.mbx[m].isFence = true → k ≠ m → s.mbx[k].phase ≠ .idle → s.mbx[k].ring < s.mbx[m].ring →
    exec (.fence m) s = .next s) ∧
  (∀ (s : State) (m : MbId) (t : Target), s.takes m 2 0x001 t = true →
    ∃ u, exec (.identify m) s = .next u ∧ s.Completes m 2
      [s.idWord, s.fwverWord, Config.starterVersion ++ 0#8 ++ 1#8,
       (match s.part with
        | .g8 => 0x03000000
        | .g16 => 0x0f000000
        | .g24 => 0x3f000000
        | .g24t => 0x3f000000),
       Config.deviceNumber.extractLsb' 0 32, Config.deviceNumber.extractLsb' 32 32,
       0#30 ++ BitVec.ofBool s.nv.fuse ++ BitVec.ofBool (decide (s.part = .g24t)),
       0#31 ++ BitVec.ofBool (decide (s.boot ≠ 0) && decide (s.nv.slots[1].st = .valid))] s u) ∧
  (∀ (s : State) (m : MbId) (t : Target), s.takes m 1 0x001 t = true →
    ∃ u, exec (.sIdent m) s = .next u ∧ s.Completes m 2 [s.idWord, s.fwverWord, 0, 0] s u)

/-- The word count that GET_PARAM and GET_ACTIVE name, none where the payload has one word (R146). -/
def Sys2Proof.Machine.readCount (x : Mailbox) : Option Nat := if x.count = 2 then some ((x.pay 2).extractLsb' 0 4).toNat else none

/-- What a read of a span does: a span the node holds, or whose bank is not reached, answers the node's words; a span
of a bank that is reached is read there; a live word of a bank that is not reached is refused with NOLINK (R116,
R146). -/
def Sys2Proof.Machine.ReadDoes (c : MbId → Instr) (abi op : Nat) (active narrow : Bool) : Prop :=
  ∀ (s : State) (m : MbId) (t : Target), s.takes m abi op t = true →
    (∀ e d, checkSpan t (s.mbx[m].pay 1) (readCount s.mbx[m]) narrow = .error (e, d) →
      ∃ u, exec (c m) s = .next u ∧ s.Completes m 3 (errWords e d) s u) ∧
    ∀ sp, checkSpan t (s.mbx[m].pay 1) (readCount s.mbx[m]) narrow = .ok sp →
      ((sp.id.bankHeld = false ∨ t.bank? = none) →
        ∃ u, exec (c m) s = .next u ∧ s.Completes m 2 (s.nodeWords t sp active) s u) ∧
      ∀ b, sp.id.bankHeld = true → t.bank? = some b →
        (s.linked b = true → ∃ u, exec (c m) s = .next u ∧
          s.Pends m (.bank b []) (s.queueOp b (sp.readOp t active) sp.n (some m)) u) ∧
        (s.linked b = false → (∃ d, sp.id = .param d) →
          ∃ u, exec (c m) s = .next u ∧ s.Completes m 2 (s.nodeWords t sp active) s u) ∧
        (s.linked b = false → (∃ d, sp.id = .live d) →
          ∃ u, exec (c m) s = .next u ∧ s.Completes m 3 (errWords .nolink 0) s u)

/-- GET_PARAM answers staged values, GET_ACTIVE applied ones, S_GET one staged word of a parameter of width 1 (R146,
R149, R134). -/
def Sys2Proof.Machine.ReadsComplete : Prop :=
  ReadDoes .getParam 2 0x002 false false ∧ ReadDoes .getActive 2 0x004 true false ∧ ReadDoes .sGet 1 0x002 false true

/-- The words that SET_PARAM and S_SET store (R16, R147). -/
def Sys2Proof.Machine.setWords (s : State) (m : MbId) (d : PDef) (sp : Span) : List Word :=
  storedValues s.part d sp.w0 ((List.range sp.n).map fun i => s.mbx[m].pay (2 + i))

/-- The node after the words have landed there: staged, and applied too where the parameter has no boundary or follows
its bank; the Proofs that cover them are OPEN (R91, R102, R118, R147). -/
def Sys2Proof.Machine.landedWords (s : State) (t : Target) (d : PDef) (sp : Span) (vals : List Word) : State :=
  let both := decide (d.acc = .rw) || decide (d.acc = .packet)
  { s with nodeP := s.nodeP.putSpan both (unitOf d.ident t) d.ident sp.w0 vals }.openProofs
    (proofsOf d.ident (unitOf d.ident t))

/-- What a write of a span does (R116, R118, R139, R147): a check that fails changes nothing; a word of a bank that is
reached waits for it; a word of a bank that is not reached, or that the node holds, is done with its landing, unless what the
landing raises halts the node by class 4 (R120). -/
def Sys2Proof.Machine.WriteDoes (c : MbId → Instr) (abi op : Nat) (narrow : Bool) : Prop :=
  ∀ (s : State) (m : MbId) (t : Target), s.takes m abi op t = true →
    (∀ e d, checkSpan t (s.mbx[m].pay 1) (some (s.mbx[m].count - 1)) narrow = .error (e, d) →
      ∃ u, exec (c m) s = .next u ∧ s.Completes m 3 (errWords e d) s u) ∧
    ∀ sp, checkSpan t (s.mbx[m].pay 1) (some (s.mbx[m].count - 1)) narrow = .ok sp →
      (∀ l, sp.id = .live l → ∃ u, exec (c m) s = .next u ∧ s.Completes m 3 (errWords .readonly 1) s u) ∧
      ∀ d, sp.id = .param d →
        (∀ e k, s.writeErr t d sp.w0 (setWords s m d sp) = some (e, k) →
          ∃ u, exec (c m) s = .next u ∧ s.Completes m 3 (errWords e k) s u) ∧
        (s.writeErr t d sp.w0 (setWords s m d sp) = none →
          (∀ b, d.bankHeld = true → t.bank? = some b → s.linked b = true →
            ∃ u, exec (c m) s = .next u ∧ s.Pends m (.bank b [])
              ((landedWords s t d sp (setWords s m d sp)).queueOp b
                (.write (keyOf (unitOf d.ident t) d.ident sp.w0) (setWords s m d sp)) sp.n (some m)) u) ∧
          (∀ b, d.bankHeld = true → t.bank? = some b → s.linked b = false →
            ∃ u, exec (c m) s = .next u ∧ s.Completes m 2 [] (landedWords s t d sp (setWords s m d sp)) u) ∧
          (d.bankHeld = false → d.ident ≠ 0x3004 →
            ((landedWords s t d sp (setWords s m d sp)).landEffect t d.ident s).boot = s.boot →
            ∃ u, exec (c m) s = .next u ∧ s.Completes m 2 []
              ((landedWords s t d sp (setWords s m d sp)).landEffect t d.ident s) u) ∧
          (∀ n, d.bankHeld = false → d.ident = 0x3004 → t = .axis n →
            ∃ u, exec (c m) s = .next u ∧ s.Completes m 2 []
              (let v := (landedWords s t d sp (setWords s m d sp)).landEffect t d.ident s
              if s.linked (bankOf n) then
                v.queueOp (bankOf n) (.write (keyOf n.val 0x3004 sp.w0) (setWords s m d sp)) sp.n none
              else v) u))

/-- SET_PARAM and S_SET (R134, R139, R147). -/
def Sys2Proof.Machine.WritesComplete : Prop := WriteDoes .setParam 2 0x003 false ∧ WriteDoes .sSet 1 0x003 true

/-- The parameter commands (R16, R91, R102, R116, R118, R134, R139, R146, R147, R149). -/
def Obligations.ParametersReadAndWrite : Prop := ReadsComplete ∧ WritesComplete

/-- A staged word reads back as stored and no other word changes; an applied word changes only where the parameter has
no boundary or follows its bank (R91, R147). -/
def Obligations.StagedWordReadsBack : Prop :=
  ∀ (p : Params) (both : Bool) (unit ident w : Nat) (v : Word), cellsWf keyDefault 0 p.staged = true →
    cellsWf keyDefault 0 p.applied = true →
    (∀ key, paramGet (p.putSpan both unit ident w [v]).staged key =
      if key = keyOf unit ident w then v else paramGet p.staged key) ∧
    ∀ key, paramGet (p.putSpan both unit ident w [v]).applied key =
      if both = true ∧ key = keyOf unit ident w then v else paramGet p.applied key

/-- A motion command of an axis executes: its bank in RUN, the axis enabled, no follow mode, no stop that a lost
enable or a fault causes (R174). -/
def Sys2Proof.Machine.motionOpen (s : State) (n : AxisId) : Prop :=
  s.banks[bankOf n].view = .run ∧ s.axes[n].eng.st ≠ .off ∧ (s.axisCfg n).mode = 0 ∧
    (s.axes[n].eng.st = .stopping → s.axes[n].eng.cause = .command)

/-- A move lands: armed it takes the place of an armed move, else it is staged for the next tick edge, cancels an
armed move and a HOME that waits for that edge (R175, R176). -/
def Sys2Proof.Machine.landedMove (s : State) (n : AxisId) (armed : Bool) (v : Move) : State :=
  s.modAxis n fun a =>
    if armed then { a with eng := { a.eng with armed := some v } }
    else { a with eng := { a.eng with armed := none, staged := some (.move v) }, obn := { a.obn with hpend := none } }

/-- RSP1 of a motion command (R175). -/
def Sys2Proof.Machine.appliesAt (s : State) (armed : Bool) : Word :=
  if armed then 0x10000 else 0#16 ++ BitVec.ofNat 16 (s.tick + 1)

/-- MOVE_TO, MOVE_BY, VELOCITY, S_MOVE and S_VELOCITY land as moves with their overrides (R172, R173, R175, R134,
R135). -/
def Sys2Proof.Machine.MovesLand : Prop :=
  ∀ (s : State) (m : MbId) (n : AxisId), motionOpen s n →
    let x := s.mbx[m]
    let start (w : Word) (armed : Bool) : Prop := w.extractLsb' 28 4 = if armed then 1 else 0
    (∀ armed, s.takes m 2 0x040 (.axis n) = true → start (x.pay 2) armed →
      ∃ u, exec (.moveTo m) s = .next u ∧ s.Completes m 2 [appliesAt s armed]
        (landedMove s n armed ⟨.target x.posArg, ⟨x.ovr 3, x.ovr 4, x.ovr 5, x.ovr 6⟩⟩) u) ∧
    (∀ armed, s.takes m 2 0x041 (.axis n) = true → start (x.pay 2) armed →
      inRange (s.axes[n].eng.byBase + (x.pay 1).toInt) = true →
      ∃ u, exec (.moveBy m) s = .next u ∧ s.Completes m 2 [appliesAt s armed]
        (landedMove s n armed ⟨.target (s.axes[n].eng.byBase + (x.pay 1).toInt),
          ⟨x.ovr 3, x.ovr 4, x.ovr 5, x.ovr 6⟩⟩) u) ∧
    (∀ armed, s.takes m 2 0x042 (.axis n) = true → start (x.arg 2) armed → x.pay 1 ≠ 0x80000000 →
      ∃ u, exec (.velocity m) s = .next u ∧ s.Completes m 2 [appliesAt s armed]
        (landedMove s n armed ⟨.velocity (x.pay 1).toInt, ⟨0, x.ovr 3, x.ovr 4, x.ovr 5⟩⟩) u) ∧
    (s.takes m 1 0x010 (.axis n) = true →
      ∃ u, exec (.sMove m) s = .next u ∧ s.Completes m 2 [appliesAt s false]
        (landedMove s n false ⟨.target (x.pay 1).toInt, ⟨0, 0, 0, 0⟩⟩) u) ∧
    (s.takes m 1 0x011 (.axis n) = true → -33554431 ≤ (x.pay 1).toInt → (x.pay 1).toInt ≤ 33554431 →
      ∃ u, exec (.sVelocity m) s = .next u ∧ s.Completes m 2 [appliesAt s false]
        (landedMove s n false ⟨.velocity ((x.pay 1).toInt * 64), ⟨0, 0, 0, 0⟩⟩) u)

/-- A target or velocity move whose axis may not move is refused and changes nothing: NOLINK where its bank is not
reached, else STATE (R174). -/
def Sys2Proof.Machine.MovesRefused : Prop :=
  ∀ (s : State) (m : MbId) (n : AxisId),
    let v := s.banks[bankOf n].view
    let e : ECode := if v = .unpowered ∨ v = .linking ∨ v = .orphan then .nolink else .state
    ¬ motionOpen s n → ∀ c ∈ [(Instr.moveTo, 2, 0x040), (Instr.moveBy, 2, 0x041), (Instr.velocity, 2, 0x042), (Instr.sMove, 1, 0x010), (Instr.sVelocity, 1, 0x011), (Instr.home, 2, 0x100)],
      s.takes m c.2.1 c.2.2 (.axis n) = true →
      ∃ u, exec (c.1 m) s = .next u ∧ s.Completes m 3 (errWords e 0) s u

/-- The commands that move an axis (R134, R135, R172 to R176). -/
def Obligations.MoveCommands : Prop := MovesLand ∧ MovesRefused

/-- STOP and S_STOP land in every state of the axis; HOME lands from STANDBY as a velocity move at the homing velocity;
SET_POSITION lands where the axis is OFF, or in STANDBY with no armed move (R174, R175, R176, R177, R291). -/
def Obligations.StopHomeSetPosition : Prop :=
  ∀ (s : State) (m : MbId) (n : AxisId),
    let x := s.mbx[m]
    let stopped (quick : Bool) : State := s.modAxis n fun a =>
      { a with eng := { a.eng with armed := none, staged := some (.stop quick) }, obn := { a.obn with hpend := none } }
    (s.takes m 2 0x043 (.axis n) = true → ∃ u, exec (.stop m) s = .next u ∧
      s.Completes m 2 [appliesAt s false] (stopped (decide (1 ≤ x.count) && (x.pay 1).getLsbD 0)) u) ∧
    (s.takes m 1 0x012 (.axis n) = true → ∃ u, exec (.sStop m) s = .next u ∧
      s.Completes m 2 [appliesAt s false] (stopped false) u) ∧
    (s.takes m 2 0x044 (.axis n) = true →
      (s.axes[n].eng.st = .off ∨ (s.axes[n].eng.st = .standby ∧ s.axes[n].eng.armed = none)) →
      s.axes[n].eng.redefOk x.posArg = true → ∃ u, exec (.setPosition m) s = .next u ∧
        s.Completes m 2 [appliesAt s false]
          (s.modAxis n fun a => { a with eng := { a.eng with setPos := some x.posArg } }) u) ∧
    (s.takes m 2 0x044 (.axis n) = true → s.axes[n].eng.st ≠ .off →
      (s.axes[n].eng.st = .standby → s.axes[n].eng.armed ≠ none) → ∃ u, exec (.setPosition m) s = .next u ∧
        s.Completes m 3 (errWords .state 0) s u) ∧
    (s.takes m 2 0x100 (.axis n) = true → motionOpen s n → s.axes[n].eng.st = .standby → s.homeBlind n = false →
      ∃ u, exec (.home m) s = .next u ∧ s.Completes m 2 [appliesAt s false]
        (s.modAxis n fun a =>
          { a with eng := { a.eng with armed := none,
                                       staged := some (.move ⟨.velocity (sgn (s.pA n.val 0x3600 0)), ⟨0, 0, 0, 0⟩⟩) },
                   obn := { a.obn with hpend := some (decide (1 ≤ x.count) && (x.pay 1).getLsbD 0) } }) u)

/-- ENABLE and S_ENABLE land virtual enable bits and answer all of them; an absent axis in a group is refused whole
(R153, R134). -/
def Obligations.EnableLands : Prop :=
  ∀ (s : State) (m : MbId),
    let x := s.mbx[m]
    let axisOf (k : Nat) : AxisId := Fin.ofNat 48 (k + if s.carries m then 24 else 0)
    let one (n : AxisId) : State := s.setVen n ((x.pay 1).getLsbD 0)
    let sel := (List.range 24).filter fun k => (x.pay 1).getLsbD k
    let group : State := s.each sel fun k u => u.setVen (axisOf k) ((x.pay 2).getLsbD k)
    (∀ n, s.takes m 2 0x008 (.axis n) = true → ∃ u, exec (.enable m) s = .next u ∧
      s.Completes m 2 [(one n).venBits (s.carries m)] (one n) u) ∧
    (∀ n, s.takes m 1 0x006 (.axis n) = true → ∃ u, exec (.sEnable m) s = .next u ∧
      s.Completes m 2 [(one n).venBits (s.carries m)] (one n) u) ∧
    (s.takes m 2 0x008 .node = true → (∀ k ∈ sel, s.axisPresent (axisOf k) = true) →
      ∃ u, exec (.enable m) s = .next u ∧ s.Completes m 2 [group.venBits (s.carries m)] group u) ∧
    (s.takes m 2 0x008 .node = true → (∃ k ∈ sel, s.axisPresent (axisOf k) = false) →
      ∃ u, exec (.enable m) s = .next u ∧ s.Completes m 3 (errWords .absent 1) s u)

/-- STREAM_OPEN opens a stream on a free window or over the points of a memory range, in state OPEN with an empty
FIFO, a brake of its source going on (R212); a window or stream in use is refused (R128, R156, R208, R211). -/
def Sys2Proof.Machine.StreamsOpen : Prop :=
  ∀ (s : State) (m : MbId) (n : AxisId), s.takes m 2 0x00b (.stream n) = true →
    let x := s.mbx[m]
    let w : WinId := Fin.ofNat 16 ((x.pay 1).extractLsb' 0 4).toNat
    let a := (x.pay 2).toNat
    let k := (x.pay 3).toNat
    let word : Word := (x.pay 1).extractLsb' 28 4 ++ 0#15 ++ BitVec.ofNat 5 (n.val % 24) ++ 0#4 ++ (x.pay 1).extractLsb' 0 4
    ((x.pay 1).extractLsb' 28 4 = 0 → x.count = 1 → s.windowStream w = none → s.axes[n].str.engaged = false →
      ∃ u, exec (.streamOpen m) s = .next u ∧ s.Completes m 2 [word]
        (s.modAxis n fun ax => { ax with str := { st := some .open_, window := some w, brake := ax.str.brake } }) u) ∧
    ((x.pay 1).extractLsb' 28 4 = 0 → x.count = 1 → (s.windowStream w ≠ none ∨ s.axes[n].str.engaged = true) →
      ∃ u, exec (.streamOpen m) s = .next u ∧ s.Completes m 3 (errWords .inuse 1) s u) ∧
    ((x.pay 1).extractLsb' 28 4 = 1 → x.count = 3 → s.xwen = true → k ≠ 0 → a % 8 = 0 → s.inWindow a (8 * k) = true →
      s.axes[n].str.engaged = false → ∃ u, exec (.streamOpen m) s = .next u ∧ s.Completes m 2 [word]
        (s.modAxis n fun ax => { ax with str := { st := some .open_, feed := some ⟨a, k, a, k, s.xwBase, false, false⟩,
                                                  brake := ax.str.brake } }) u) ∧
    ((x.pay 1).extractLsb' 28 4 = 1 → x.count = 3 → s.xwen = false →
      ∃ u, exec (.streamOpen m) s = .next u ∧ s.Completes m 3 (errWords .state 0) s u)

/-- STREAM_CLOSE ends the stream and answers the points left; STREAM_FLUSH empties a stream that does not play and
answers the points dropped; STREAM_ACK clears the flags named and acknowledges the classes that no set flag holds
(R129, R157, R223, R224, R470). -/
def Sys2Proof.Machine.StreamsCloseFlushAck : Prop :=
  ∀ (s : State) (m : MbId) (n : AxisId),
    let q := s.axes[n].str
    let count (k : Nat) : List Word := [0#16 ++ BitVec.ofNat 16 k]
    let quiet : State := s.modMem (MemPort.dropFetch n)
    (s.takes m 2 0x00c (.stream n) = true → q.st ≠ none → ∃ u, exec (.streamClose m) s = .next u ∧
      s.Completes m 2 (count (if q.st = some .run then q.fifo.length else 0))
        (quiet.modAxis n fun a => { a with str := q.close }) u) ∧
    (s.takes m 2 0x00c (.stream n) = true → q.st = none → ∃ u, exec (.streamClose m) s = .next u ∧
      s.Completes m 3 (errWords .notopen 0) s u) ∧
    (s.takes m 2 0x081 (.stream n) = true → q.st ≠ none → q.st ≠ some .run → q.st ≠ some .pending →
      ∃ u, exec (.streamFlush m) s = .next u ∧
        s.Completes m 2 (count q.fifo.length) (quiet.modAxis n fun a => { a with str := q.flush }) u) ∧
    (s.takes m 2 0x081 (.stream n) = true → (q.st = some .run ∨ q.st = some .pending) →
      ∃ u, exec (.streamFlush m) s = .next u ∧ s.Completes m 3 (errWords .state 0) s u) ∧
    (s.takes m 2 0x082 (.stream n) = true → ∃ u v, exec (.streamAck m) s = .next u ∧ s.Completes m 2 [] v u ∧
      v = { s with blocks := v.blocks } ∧ (∀ i, i ≠ .stream n → v.block i = s.block i) ∧
      (v.block (.stream n)).status = (s.block (.stream n)).status &&& ~~~((s.mbx[m].pay 1) &&& 0xff))

/-- STREAM_START puts primed streams of axes in FOLLOW that play streams into PENDING with one start tick, the next
tick or one 2 to 32,767 ticks after it, and answers that tick; a stream that is not ready refuses the whole group
(R211, R214, R222). -/
def Sys2Proof.Machine.StreamsStart : Prop :=
  ∀ (s : State) (m : MbId),
    let x := s.mbx[m]
    let first := (s.tick + 1) % 65536
    let later (w : Word) : Nat := ((w.extractLsb' 0 16).toNat + 65536 - first) % 65536
    let at_ (w : Word) (k : Nat) : Prop :=
      (w.extractLsb' 28 4 = 0 ∧ k = first) ∨
        (w.extractLsb' 28 4 = 1 ∧ k = (w.extractLsb' 0 16).toNat ∧ 2 ≤ later w ∧ later w ≤ 32767)
    let started (l : List AxisId) (k : Nat) : State :=
      { s.each l fun n t => t.modAxis n fun a => { a with str := { a.str with
          st := some .pending, group := s.groupSeq + 1, startAt := k, groupDue := false,
          played := if a.str.st = some .open_ then 0 else a.str.played } } with groupSeq := s.groupSeq + 1 }
    let group := ((List.range 24).filter fun k => (x.pay 1).getLsbD k).map fun k =>
      (Fin.ofNat 48 (k + if s.carries m then 24 else 0) : AxisId)
    (∀ n k, s.takes m 2 0x080 (.stream n) = true → at_ (x.arg 1) k → s.startOk n = true →
      ∃ u, exec (.streamStart m) s = .next u ∧ s.Completes m 2 [0#16 ++ BitVec.ofNat 16 k] (started [n] k) u) ∧
    (∀ n k, s.takes m 2 0x080 (.stream n) = true → at_ (x.arg 1) k → s.startOk n = false →
      ∃ u, exec (.streamStart m) s = .next u ∧ s.Completes m 3 (errWords .state 1) s u) ∧
    (∀ k, s.takes m 2 0x080 .node = true → at_ (x.arg 2) k → group ≠ [] → (∀ n ∈ group, s.axisPresent n = true) →
      (∀ n ∈ group, s.startOk n = true) →
      ∃ u, exec (.streamStart m) s = .next u ∧ s.Completes m 2 [0#16 ++ BitVec.ofNat 16 k] (started group k) u) ∧
    (∀ k, s.takes m 2 0x080 .node = true → at_ (x.arg 2) k → (∀ n ∈ group, s.axisPresent n = true) →
      (∃ n ∈ group, s.startOk n = false) →
      ∃ u, exec (.streamStart m) s = .next u ∧ s.Completes m 3 (errWords .state 1) s u)

/-- The commands of streams (R128, R129, R156, R157, R208, R211, R214, R222 to R224, R470). -/
def Obligations.StreamCommands : Prop := StreamsOpen ∧ StreamsCloseFlushAck ∧ StreamsStart

/-- HARM_CLEAR, HARM_SET and TABLE_DEFAULT send their words to the bank of the axis and wait for it; a coefficient
beyond the applied HLMAX, with the word that holds it, then a bank out of reach, or an axis that is not OFF refuses them
(R265, R266, R267). -/
def Sys2Proof.Machine.HarmonicsTravel : Prop :=
  ∀ (s : State) (m : MbId) (n : AxisId),
    let b := bankOf n
    let p := posOf n
    let x := s.mbx[m]
    let h := harmOf (x.pay 1) (x.pay 2)
    let lim := fieldN (s.bA n.val 0x3414 0) 16 16
    let reach : Prop := s.banks[b].view = .run ∨ s.banks[b].view = .service
    let default : State := (s.defaultTable n).openProofs [.axisB n]
    (s.takes m 2 0x0c0 (.axis n) = true → reach → ∃ u, exec (.harmClear m) s = .next u ∧
      s.Pends m (.bank b []) (s.queueOp b (.harm p #v[0, 0, 0, 0]) 2 (some m)) u) ∧
    (s.takes m 2 0x0c1 (.axis n) = true → reach → (∀ i : Fin 4, h[i].toInt.natAbs ≤ lim) →
      ∃ u, exec (.harmSet m) s = .next u ∧ s.Pends m (.bank b []) (s.queueOp b (.harm p h) 2 (some m)) u) ∧
    (s.takes m 2 0x0c1 (.axis n) = true → (∃ i : Fin 4, lim < h[i].toInt.natAbs) →
      ∃ u, exec (.harmSet m) s = .next u ∧ s.Completes m 3
        (errWords .range (if lim < h[0].toInt.natAbs ∨ lim < h[1].toInt.natAbs then 1 else 2)) s u) ∧
    (s.takes m 2 0x0c0 (.axis n) = true → ¬ reach → ∃ u, exec (.harmClear m) s = .next u ∧
      s.Completes m 3 (errWords .nolink 0) s u) ∧
    (s.takes m 2 0x0c1 (.axis n) = true → ¬ reach → (∀ i : Fin 4, h[i].toInt.natAbs ≤ lim) →
      ∃ u, exec (.harmSet m) s = .next u ∧ s.Completes m 3 (errWords .nolink 0) s u) ∧
    (s.takes m 2 0x0c2 (.axis n) = true → s.axes[n].eng.st = .off → s.linked b = true →
      ∃ u, exec (.tableDefault m) s = .next u ∧ s.Pends m (.tableDefault b) (default.queueOp b (.table p) 128 (some m)) u) ∧
    (s.takes m 2 0x0c2 (.axis n) = true → s.axes[n].eng.st = .off → s.linked b = false →
      ∃ u, exec (.tableDefault m) s = .next u ∧ s.Completes m 2 [] default u) ∧
    (s.takes m 2 0x0c2 (.axis n) = true → s.axes[n].eng.st ≠ .off →
      ∃ u, exec (.tableDefault m) s = .next u ∧ s.Completes m 3 (errWords .state 0) s u)

/-- What a COMMIT of a target names: a bank with its axes' halves where ALL is set, an axis, or the node with every
present bank and axis where ALL is set (R150). -/
def Sys2Proof.Machine.commitOf (s : State) (m : MbId) (t : Target) : CommitRun :=
  let all := decide (s.mbx[m].count = 1) && (s.mbx[m].pay 1).getLsbD 0
  let q := s.commitNames t all
  ⟨m, q.1, q.2.1, q.2.2, false, false, []⟩

/-- What COMMIT and S_COMMIT do: they wait for the next scan, unless a bank they name is out of reach (R103, R150,
R134). -/
def Sys2Proof.Machine.CommitDoes (c : MbId → Instr) (abi op : Nat) : Prop :=
  ∀ (s : State) (m : MbId) (t : Target), s.takes m abi op t = true →
    let k := commitOf s m t
    let all := decide (s.mbx[m].count = 1) && (s.mbx[m].pay 1).getLsbD 0
    ((∀ b ∈ k.banks ++ k.axes.map bankOf, s.linked b = true) → ∃ u, exec (c m) s = .next u ∧
      s.Pends m (.commit all) { s with commits := s.commits ++ [k] } u) ∧
    ((∃ b ∈ k.banks ++ k.axes.map bankOf, s.linked b = false) → ∃ u, exec (c m) s = .next u ∧
      s.Completes m 3 (errWords .nolink 0) s u)

/-- What STORE and S_STORE do: they take the set in one clock and wait for the writing; a die too warm or too cold
refuses them (R151, R511, R514, R134). -/
def Sys2Proof.Machine.StoreDoes (c : MbId → Instr) (abi op : Nat) : Prop :=
  ∀ (s : State) (m : MbId) (t : Target), s.takes m abi op t = true →
    let seq := (if s.nv.setOk then s.nv.setNow.seq else 0) + 1
    let set : ConfigSet := ⟨false, true, seq, Config.firmwareLayout, s.snapshot⟩
    (s.kiln.open_ = true → ∃ u, exec (c m) s = .next u ∧
      s.Pends m .store { s with nv := { s.nv with stores := s.nv.stores ++ [⟨m, set⟩] } } u) ∧
    (s.kiln.open_ = false → ∃ u, exec (c m) s = .next u ∧ s.Completes m 3 (errWords .temp 0) s u)

/-- COMMIT, S_COMMIT, STORE and S_STORE (R103, R134, R150, R151). -/
def Sys2Proof.Machine.CommitAndStorePend : Prop :=
  CommitDoes .commit 2 0x005 ∧ CommitDoes .sCommit 1 0x004 ∧ StoreDoes .store 2 0x006 ∧ StoreDoes .sStore 1 0x005

/-- COMMIT, STORE and the commands whose words travel to a bank (R103, R150, R151, R265 to R267). -/
def Obligations.StoredAndSentTables : Prop := HarmonicsTravel ∧ CommitAndStorePend

/-- SERVICE puts its request into the control word of the bank and waits; a bank in another state than the request needs
refuses it (R154). SAFE_RELEASE, KILN_RESTORE and BANK_CAL travel as one register operation; a bank that lost its link takes
its configuration again before its release (R26, R335, R463, R532). -/
def Obligations.BankCommandsTravel : Prop :=
  ∀ (s : State) (m : MbId) (b : BankId),
    let a := (s.mbx[m].pay 1).extractLsb' 0 2
    let v := s.banks[b].view
    let fit : Prop := (a = 0 ∧ v = .service) ∨ ((a = 1 ∨ a = 2) ∧ v = .run)
    (s.takes m 2 0x009 (.bank b) = true → fit → ∃ u, exec (.service m) s = .next u ∧
      s.Pends m (.service b a) (s.modBank b fun k => { k with svcReq := if a = 0 then 3 else a }) u) ∧
    (s.takes m 2 0x009 (.bank b) = true → a ≠ 3 → ¬ fit → ∃ u, exec (.service m) s = .next u ∧
      s.Completes m 3 (errWords .state 0) s u) ∧
    (s.takes m 2 0x141 (.bank b) = true → v = .safe → ∃ u, exec (.safeRelease m) s = .next u ∧
      s.Pends m (.safeRelease b) ((if s.banks[b].undelivered then
          (s.deliver b).modBank b fun k => { k with undelivered := false, reinit := false }
        else s).queueOp b .safeRelease 1 (some m)) u) ∧
    (s.takes m 2 0x141 (.bank b) = true → v ≠ .safe → ∃ u, exec (.safeRelease m) s = .next u ∧
      s.Completes m 3 (errWords .state 0) s u) ∧
    (s.takes m 2 0x280 (.bank b) = true → s.linked b = true → ∃ u, exec (.kilnRestore m) s = .next u ∧
      s.Pends m (.bank b [s.kiln.shown[b].extractLsb' 16 16 ++ 0#16])
        (s.queueOp b (.kiln ((s.mbx[m].pay 1).extractLsb' 0 9)) 1 (some m)) u) ∧
    (s.takes m 2 0x280 (.bank b) = true → s.linked b = false → ∃ u, exec (.kilnRestore m) s = .next u ∧
      s.Completes m 3 (errWords .nolink 0) s u) ∧
    (s.takes m 2 0x34e (.bank b) = true → v = .service → (∀ p : Pos, s.axes[axisAt b p].eng.st = .off) →
      ∃ u, exec (.bankCal m) s = .next u ∧ s.Pends m (.cal b) (s.queueOp b .cal 1 (some m)) u) ∧
    (s.takes m 2 0x34e (.bank b) = true → (v ≠ .service ∨ ∃ p : Pos, s.axes[axisAt b p].eng.st ≠ .off) →
      ∃ u, exec (.bankCal m) s = .next u ∧ s.Completes m 3 (errWords .state 0) s u)

/-- SAFE_FORCE issues a safe-level request to every bank that it names and the node reaches, raises their SOFTSAFE and
waits for them; with no bank in reach a node target completes with an empty word, a bank target is refused (R326,
R334). -/
def Sys2Proof.Machine.SafeForceRequests : Prop :=
  ∀ (s : State) (m : MbId),
    (∀ b, s.takes m 2 0x140 (.bank b) = true → s.linked b = true → ∃ u v, exec (.safeForce m) s = .next u ∧
      v.banks[b].softReq = true ∧ (s.banks[b].softReq = false → v.statusBit (.bank b) 1 = true) ∧ s.FaultFrame v ∧
      s.Pends m (.safeForce [b] (1#32 <<< (b.val % 6))) v u) ∧
    (s.takes m 2 0x140 .node = true → (∃ b ∈ s.sideBanks m, s.linked b = true) → ∃ u v l w,
      exec (.safeForce m) s = .next u ∧ (∀ b, b ∈ l ↔ b ∈ s.sideBanks m ∧ s.linked b = true) ∧
        (∀ b ∈ l, v.banks[b].softReq = true) ∧ s.FaultFrame v ∧ s.Pends m (.safeForce l w) v u) ∧
    (∀ b, s.takes m 2 0x140 (.bank b) = true → s.linked b = false → ∃ u, exec (.safeForce m) s = .next u ∧
      s.Completes m 3 (errWords .nolink 0) s u) ∧
    (s.takes m 2 0x140 .node = true → (∀ b ∈ s.sideBanks m, s.linked b = false) → ∃ u, exec (.safeForce m) s = .next u ∧
      s.Completes m 2 [0] s u)

/-- SPARE_SWAP and SPARE_RETURN travel to a bank in SERVICE whose swaps rest, for an axis that is OFF; SPARE_SWAP
needs an idle spare, SPARE_RETURN a terminal that a spare serves and that is not retired (R359, R364, R370). -/
def Sys2Proof.Machine.SpareCommandsTravel : Prop :=
  ∀ (s : State) (m : MbId) (n : AxisId),
    let b := bankOf n
    let w := s.mbx[m].pay 1
    let leg := legOf n (w.extractLsb' 0 2)
    let sel := w.extractLsb' 2 2
    let mir := s.banks[b].mir.spare
    let ready : Prop := s.banks[b].view = .service ∧ s.axes[n].eng.st = .off ∧ s.swapRuns b = false
    (s.takes m 2 0x180 (.axis n) = true → ready → sel ≠ 3 → spareFree mir sel = true →
      ∃ u, exec (.spareSwap m) s = .next u ∧ s.Pends m (.swapLeg b) (s.queueOp b (.swap leg sel false) 1 (some m)) u) ∧
    (s.takes m 2 0x180 (.axis n) = true → ready → sel ≠ 3 → spareFree mir sel = false →
      ∃ u, exec (.spareSwap m) s = .next u ∧ s.Completes m 3 (errWords .inuse 0) s u) ∧
    (s.takes m 2 0x181 (.axis n) = true → ready → spareServes mir leg = true → mir.getLsbD (16 + leg.val) = false →
      ∃ u, exec (.spareReturn m) s = .next u ∧ s.Pends m (.swapLeg b) (s.queueOp b (.swap leg 0 true) 1 (some m)) u) ∧
    (∀ c ∈ [(Instr.spareSwap, 0x180), (Instr.spareReturn, 0x181)], s.takes m 2 c.2 (.axis n) = true → ¬ ready →
      ∃ u, exec (c.1 m) s = .next u ∧ s.Completes m 3 (errWords .state 0) s u)

/-- SAFE_FORCE and the spare-leg commands (R326, R334, R359, R364, R370). -/
def Obligations.SafeAndSpareCommands : Prop := SafeForceRequests ∧ SpareCommandsTravel

/-- QUEUE_FLUSH empties one queue and answers the entries dropped; FB_SET sets the count of a channel in use and
answers the old one; FB_XREF clears the reference of a cross-checked channel (R390, R405, R407, R418). -/
def Sys2Proof.Machine.QueueAndChannelCommands : Prop :=
  ∀ (s : State) (m : MbId),
    (∀ b, s.takes m 2 0x1c0 (.bank b) = true → ∃ u, exec (.queueFlush m) s = .next u ∧
      s.Completes m 2 [0#22 ++ BitVec.ofNat 10 s.banks[b].queue.fifo.length]
        (s.modBank b fun k => { k with queue := k.queue.flush }) u) ∧
    (s.takes m 2 0x1c0 .aux = true → ∃ u, exec (.queueFlush m) s = .next u ∧
      s.Completes m 2 [0#22 ++ BitVec.ofNat 10 s.auxq.fifo.length] { s with auxq := s.auxq.flush } u) ∧
    (∀ q : Queue, q.flush.fifo = [] ∧ q.flush.en = q.en ∧ q.flush.ovf = q.ovf) ∧
    (∀ n, s.takes m 2 0x200 (.fb n) = true → (s.fbCfg n).mode ≠ 0 → ∃ u, exec (.fbSet m) s = .next u ∧
      s.Completes m 2 [s.fbs[n].count] (s.modFb n (FbChan.redefine (s.fbCfg n) (s.mbx[m].pay 1))) u) ∧
    (∀ n, s.takes m 2 0x201 (.fb n) = true → (s.fbCfg n).mode = 4 → ∃ u, exec (.fbXref m) s = .next u ∧
      s.Completes m 2 [] (s.modFb n fun f => { f with xref := none, xmisUp := false }) u) ∧
    (∀ n, s.takes m 2 0x200 (.fb n) = true → (s.fbCfg n).mode = 0 → ∃ u, exec (.fbSet m) s = .next u ∧
      s.Completes m 3 (errWords .state 0) s u) ∧
    (∀ n, s.takes m 2 0x201 (.fb n) = true → (s.fbCfg n).mode ≠ 4 → ∃ u, exec (.fbXref m) s = .next u ∧
      s.Completes m 3 (errWords .state 0) s u)

/-- FAULT_LOG answers the oldest entries, at most seven, removes them and clears the count of lost ones (R482, R483). -/
def Sys2Proof.Machine.FaultLogReads : Prop :=
  ∀ (s : State) (m : MbId), s.takes m 2 0x2c0 .node = true →
    let x := s.mbx[m]
    let n := if x.count = 0 then 7 else ((x.pay 1).extractLsb' 0 3).toNat
    (n ≠ 0 → ∃ u, exec (.faultLog m) s = .next u ∧
      s.Completes m 2 ((0#16 ++ BitVec.ofNat 8 (min n s.fn.log.length) ++ s.fn.lost) ::
          (s.fn.log.take n).flatMap fun (e : Word × Word) => [e.1, e.2])
        { s with fn := { s.fn with log := s.fn.log.drop n, lost := 0 } } u) ∧
    (n = 0 → ∃ u, exec (.faultLog m) s = .next u ∧ s.Completes m 3 (errWords .range 1) s u)

/-- FAULT_TEST raises the source that it names as a fault of its block and answers the class raised; a class 3 source
whose class is pending halts the node instead, and the command completes HALTED (R120, R469, R477, R483). -/
def Sys2Proof.Machine.FaultTestRaises : Prop :=
  ∀ (s : State) (m : MbId) (t : Target) (i : BlockId) (c : Nat), s.takes m 2 0x2c1 t = true →
    let w := s.mbx[m].pay 1
    let bit := (w.extractLsb' 0 5).toNat
    t.testBlock (w.getLsbD 5) = some i → classOf s.part i bit = some c →
    ((s.block i).fen.getLsbD bit = true → (c ≠ 3 ∨ (s.block i).pend.getLsbD 3 = false) → ∃ u v,
      exec (.faultTest m) s = .next u ∧ s.RaisedAt i bit v ∧
        s.Completes m 2 [BitVec.ofNat 32 (if (s.block i).pend.getLsbD c then c + 1 else c)] v u) ∧
    ((s.block i).fen.getLsbD bit = true → c = 3 → (s.block i).pend.getLsbD 3 = true → ∃ u,
      exec (.faultTest m) s = .next u ∧ u.boot = 3 ∧ u.haltC4 = true ∧ u.fn.class4 = true ∧ u.fn.nerrOn = true ∧
        u.mbx[m].phase = .idle ∧ u.mbx[m].rsp[1] = 0x13) ∧
    ((s.block i).fen.getLsbD bit = false → ∃ u, exec (.faultTest m) s = .next u ∧
      s.Completes m 3 (errWords .state 1) s u)

/-- FAULT_LOG and FAULT_TEST (R120, R469, R477, R482, R483). -/
def Obligations.FaultCommands : Prop := FaultLogReads ∧ FaultTestRaises

/-- RESET_BLOCK and S_RESET: a block that may be reset and rests is reset in the node, at once where no bank has a
part of it or its bank is out of reach (and the mode that a channel enters again does not halt the node by class 4, R120); a block whose bank is reached waits for the bank; a block in use waits until
it is free; a block that may not be reset refuses (R155, R134). -/
def Sys2Proof.Machine.ResetDoes (c : MbId → Instr) (abi op : Nat) : Prop :=
  ∀ (s : State) (m : MbId) (t : Target), s.takes m abi op t = true →
    (s.resetAllowed t = false → ∃ u, exec (c m) s = .next u ∧ s.Completes m 3 (errWords .state 0) s u) ∧
    (s.resetAllowed t = true → s.blockBusy m = true → ∃ u, exec (c m) s = .next u ∧
      u.mbx[m].phase = .waiting .resetPend ∧ u.blocks = s.blocks ∧ u.nodeP = s.nodeP ∧ u.axes = s.axes) ∧
    (s.resetAllowed t = true → s.blockBusy m = false → (∀ b o, t.resetOp = some (b, o) → s.linked b = false) →
      (s.resetTarget t none).boot = s.boot → ∃ u, exec (c m) s = .next u ∧ s.Completes m 2 [] (s.resetTarget t none) u) ∧
    (∀ b o, s.resetAllowed t = true → s.blockBusy m = false → t.resetOp = some (b, o) → s.linked b = true →
      ∃ u, exec (c m) s = .next u ∧ s.Pends m (.bank b []) (s.resetTarget t (some m)) u)

/-- RESET_BLOCK and S_RESET; what a reset leaves of the block's fault registers, where the mode that a channel enters again
raises nothing (R155, R401, R471, R134). -/
def Sys2Proof.Machine.BlockResets : Prop :=
  ResetDoes .resetBlock 2 0x00a ∧ ResetDoes .sReset 1 0x01f ∧
  ∀ (s : State) (t : Target) (i : BlockId) (mb : Option MbId), t.block? = some i →
    (∀ n, t = .fb n → (FbChan.resetBlock (s.fbCfg n) s.now s.fbs[n]).2 = []) → ((s.resetTarget t mb).block i).status = 0 ∧ ((s.resetTarget t mb).block i).pend = 0 ∧
    ((s.resetTarget t mb).block i).fen = (s.block i).fen ∧ ((s.resetTarget t mb).block i).codes = (s.block i).codes

/-- The commands of queues, channels and block resets (R155, R390, R405, R407, R418, R471). -/
def Obligations.UnitCommands : Prop := QueueAndChannelCommands ∧ BlockResets

/-- ENTRY_RESTART starts a precharge where mains is present and ends a refusal where it is absent, a discharge that is due
coming first; BUS_DISCHARGE starts a discharge while every axis of the node is OFF, and one that runs, or waits for its
account, goes on (R426, R427, R432, R444). -/
def Obligations.EntryCommands : Prop :=
  ∀ (s : State) (m : MbId),
    let e := s.entry
    let restarted : Entry := if e.dischDue then { e with st := .off, cause := 0, refusing := false, holdOff := false, again := true }
      else if e.mainsok then e.precharge
      else { e with st := .off, cause := 0, refusing := false }
    let bled : Entry := { e with pfcOn := false, pfcOv := false, inrush := false, step := 0, holdOff := true, inlim := false,
                                 refusing := decide (e.st = PEState.refused) || e.refusing, disch := e.disch || !e.paused,
                                 drew := true, dischDue := false, st := .discharge }
    (s.takes m 2 0x240 .entry = true → (e.st = .refused ∨ (e.st = .off ∧ e.mainsok = true)) →
      ∃ u, exec (.entryRestart m) s = .next u ∧
        s.Completes m 2 [restarted.pestat] { s with entry := restarted } u) ∧
    (s.takes m 2 0x240 .entry = true → e.st ≠ .refused → (e.st = .off → e.mainsok = false) →
      ∃ u, exec (.entryRestart m) s = .next u ∧ s.Completes m 3 (errWords .state 0) s u) ∧
    (s.takes m 2 0x241 .entry = true → (∀ n : AxisId, n.val < 24 → s.axisPresent n = true → s.axes[n].eng.st = .off) →
      ∃ u, exec (.busDischarge m) s = .next u ∧ s.Completes m 2 [bled.pestat] { s with entry := bled } u) ∧
    (s.takes m 2 0x241 .entry = true → (∃ n : AxisId, n.val < 24 ∧ s.axisPresent n = true ∧ s.axes[n].eng.st ≠ .off) →
      ∃ u, exec (.busDischarge m) s = .next u ∧ s.Completes m 3 (errWords .state 0) s u)

/-! ## Power entry, supplies and keep domain -/

/-- The step of an event answers a next state in which the entry is `e` and the fault at a bit of the power entry has
been raised, nothing else being touched. -/
def Sys2Proof.Machine.EntryFaults (c : Instr) (s : State) (e : Entry) (bit : Nat) : Prop :=
  ∃ u, exec c s = .next u ∧ State.RaisedAt { s with entry := e } .entry bit u

/-- The step of an event answers the state with another entry and nothing else changed. -/
def Sys2Proof.Machine.EntryBecomes (c : Instr) (s : State) (e : Entry) : Prop :=
  exec c s = .next { s with entry := e }

/-- Mains supervision (R419 to R423): every half-cycle joins the last ten and shows mains by its peak; the budget
update takes the lowest of them, limits the input power, keeps the bus voltage and the drawn charge free (log 4), and moves
the budget within the values of R420; MAINS_LOW, MAINS_HIGH and MAINS_FREQ are raised once each time they begin, MAINS_FREQ
again where 1 s has passed since the last (log 78). -/
def Sys2Proof.Machine.MainsSupervision : Prop :=
  ∀ (s : State), s.powered = true →
    let e := s.entry
    (∀ rms : Half, rms.toNat ≤ 2750 → EntryBecomes (.mainsHalfCycle rms) s
      { e with halves := (rms.toNat :: e.halves).take 10,
               mainsok := e.mainsok || decide (600 * 600 < 2 * rms.toNat * rms.toNat) }) ∧
    (∀ rms : Half, 2750 < rms.toNat → e.high = false → EntryFaults (.mainsHalfCycle rms) s
      { e with halves := (rms.toNat :: e.halves).take 10, mainsok := true, high := true, pfcOn := false } 2) ∧
    (∀ pin : Half, ∃ u, exec (.budgetUpdate pin) s = .next u ∧
      u = { s with entry := u.entry, free := s.free + 2 } ∧
      u.entry.pin = BitVec.ofNat 16 (min pin.toNat (if e.inlim then e.pbud else 5 * e.pbud / 4)) ∧
      (e.mainsok = false → u.entry.pbud = s.part.budgets.2 ∧ u.entry.vmains = BitVec.ofNat 16 (lowest e.halves)) ∧
      (e.mainsok = true → e.halves ≠ [] → u.entry.vmains = BitVec.ofNat 16 (lowest e.halves) ∧
        u.entry.pbud ≤ max e.pbud (budgetAt s.part (lowest e.halves)))) ∧
    (e.low = false → EntryFaults .mainsLow s { e with low := true } 1) ∧
    (e.high = true → EntryBecomes .mainsHighRecover s
      { e with high := false, pfcOn := decide (e.st = .ramp ∨ e.st = .run) }) ∧
    ((∀ t, e.freqAt = some t → t + 20000 ≤ s.edgeT) → EntryFaults .mainsFreq s { e with freqAt := some s.edgeT } 3) ∧
    (∀ t, e.freqAt = some t → s.edgeT < t + 20000 → EntryBecomes .mainsFreq s { e with freqAt := some s.edgeT })

/-- Loss and return of mains (R421, R423, R428, R433 to R435): the PFC stage stops, the inrush switch opens, the bus is to be
discharged, the budget is that at 190 V, the chopper runs on, MAINSOFF is raised, and every bank of the node in RUN or SERVICE is requested safe; a return with the
entry in OFF precharges where AUTORST is 1. -/
def Sys2Proof.Machine.MainsLossAndReturn : Prop :=
  ∀ (s : State), s.powered = true →
    let e := s.entry
    (e.mainsok = true → ∃ u, exec .mainsLoss s = .next u ∧ State.RaisedAt { s with entry := u.entry } .entry 0 u ∧
      u.entry.mainsok = false ∧ u.entry.pfcOn = false ∧ u.entry.inrush = false ∧ u.entry.xcap = true ∧
      u.entry.pbud = s.part.budgets.2 ∧ u.entry.chopon = e.chopon ∧ u.entry.high = e.high ∧
      (e.st ≠ .refused → e.st ≠ .discharge → u.entry.st = .off ∧ u.entry.dischDue = true) ∧
      ((e.st = .refused ∨ e.st = .discharge) → u.entry.st = e.st) ∧
      (∀ b : BankId, b.val < 6 → s.present b = true → (s.banks[b].view = .run ∨ s.banks[b].view = .service) →
        u.banks[b].softReq = true)) ∧
    (e.mainsok = false → exec .mainsLoss s = .next s) ∧
    (e.st = .off → e.dischDue = false → e.holdOff = false → s.autorst = true →
      EntryBecomes .mainsReturn s { e with mainsok := true, xcap := false }.precharge) ∧
    (e.st = .off → e.dischDue = false → e.holdOff = false → s.autorst = false →
      EntryBecomes .mainsReturn s { e with mainsok := true, xcap := false, holdOff := true, returned := false }) ∧
    (e.st = .discharge → EntryBecomes .mainsReturn s { e with mainsok := true, xcap := false, returned := true })

/-- Mains (R419 to R423, R433 to R435). -/
def Obligations.MainsEvents : Prop := MainsSupervision ∧ MainsLossAndReturn

/-- Precharge (R424, R426, R429): it starts from OFF; the capacitance, 0.5 A times the time from 40 to 80 V over 40 V, must
lie between 25 and 520 µF, a time of 2,000 to 41,600 µs; the inrush
switch closes and the PFC stage ramps the bus; RUN is entered with the chopper tested; a failed check or a missed time
refuses, and a refusal discharges the bus. -/
def Sys2Proof.Machine.PrechargeSequence : Prop :=
  ∀ (s : State), s.powered = true →
    let e := s.entry
    let refused (cause : BitVec 4) (e : Entry) : Entry :=
      { e with cause := cause, inrush := false, pfcOn := false, step := 0, dischDue := true, refusing := true,
               st := .discharge }
    (e.st = .off → e.holdOff = false → e.dischDue = false → e.xcap = false → EntryBecomes .prechargeStart s e.precharge) ∧
    (∀ rise : Word, e.st = .precharge → e.step = 1 →
      let measured : Entry := { e with cbus := BitVec.ofNat 16 (min 65535 (rise.toNat / 80)), step := 2 }
      (2000 ≤ rise.toNat → rise.toNat ≤ 41600 → EntryBecomes (.capacitanceCheck rise) s measured) ∧
      (41600 < rise.toNat → EntryFaults (.capacitanceCheck rise) s (refused 1 measured) 4) ∧
      (rise.toNat < 2000 → EntryFaults (.capacitanceCheck rise) s (refused 2 measured) 4)) ∧
    (e.st = .precharge → e.step = 2 → EntryBecomes .inrushClose s
      { e with st := .ramp, step := 0, inrush := true, pfcOn := !e.high, ovacc := 1000, inlim := false }) ∧
    (∀ i bus : Half, e.st = .ramp →
      ((s.chopen = false ∨ (bus.toNat ≤ 4 * i.toNat ∧ 2 * i.toNat ≤ 5 * bus.toNat)) →
        EntryBecomes (.entryRun i bus) s { e with st := .run }) ∧
      (s.chopen = true → 4 * i.toNat < bus.toNat → EntryFaults (.entryRun i bus) s { e with st := .run } 9) ∧
      (s.chopen = true → bus.toNat ≤ 4 * i.toNat → 5 * bus.toNat < 2 * i.toNat →
        EntryFaults (.entryRun i bus) s { e with st := .run, chopShort := true, chopon := false } 10)) ∧
    (e.st = .precharge → e.step = 1 → EntryFaults (.prechargeTimeout false) s (refused 3 e) 5) ∧
    (e.st = .precharge → e.step = 2 → EntryFaults (.prechargeTimeout true) s (refused 4 e) 5) ∧
    (e.refusing = true → e.mainsok = false → EntryBecomes .refusalExpire s
      { e with refusing := false, cause := 0, st := if e.st = .refused then .off else e.st })

/-- The bus in operation (R422, R425, R428, R430, R437): overload account, chopper and its lock, overvoltage, low bus, the
node's converter. -/
def Sys2Proof.Machine.BusSupervision : Prop :=
  ∀ (s : State), s.powered = true →
    let e := s.entry
    (e.inlim = false → EntryFaults .overloadEmpty s { e with inlim := true, ovacc := 0 } 6) ∧
    (e.inlim = true → EntryBecomes .overloadRefilled s { e with inlim := false, ovacc := 500 }) ∧
    (s.chopen = true → (e.st = .run ∨ e.st = .discharge ∨ e.dischDue = true) → e.chopShort = false → e.chopLong = false →
      EntryBecomes (.chopperSwitch true) s { e with chopon := true }) ∧
    (s.chopen = false → EntryBecomes (.chopperSwitch true) s e) ∧
    EntryBecomes (.chopperSwitch false) s { e with chopon := e.bleed && s.powered, chopLong := false, pfcOv := false } ∧
    (e.chopon = true → e.bleed = false → (s.refOk = false ∨ 20 * fieldN (s.pA 0 0x1400 0) 16 16 < e.chopT + s.units) →
      EntryFaults .choplong s { e with chopon := false, chopLong := true } 11) ∧
    (e.pfcOn = true → e.pfcOv = false → EntryFaults .pfcOvervoltage s { e with pfcOv := true } 8) ∧
    (e.st = .run → EntryFaults .busLow s e 7) ∧
    (∀ up, EntryBecomes (.auxConverterSwitch up) s { e with supplyUp := up }) ∧
    (∀ s5v : Bool, fieldN (s.pA 0 0x1400 0) (if s5v then 1 else 0) 1 = 1 →
      EntryFaults (.outputCurrentLimit s5v) s e (if s5v then 13 else 14))

/-- Precharge and the bus in operation (R422 to R430). -/
def Obligations.BusEvents : Prop := PrechargeSequence ∧ BusSupervision

/-- Discharge (R426, R427, R429, R431, R432, R435): its start, 60 V, its end, the empty account, which hands it to a chopper
that CHOPSHORT has not locked and else pauses it (log 78), and the resumption. -/
def Sys2Proof.Machine.DischargeSequence : Prop :=
  ∀ (s : State), s.powered = true →
    let e := s.entry
    let beyond : Entry := { e with chopon := e.chopon && !e.bleed, disch := e.disch && !e.bleed, bleed := false, paused := false }
    let done : Entry := { e with disch := false, paused := false, bleed := false, chopon := e.chopon && !e.bleed }
    (e.dischDue = true → EntryBecomes .activeDischargeStart s
      { e with disch := e.disch || !e.paused, drew := true, dischDue := false, st := .discharge }) ∧
    (e.st = .discharge → e.refusing = true → EntryBecomes .dischargeReaches60V s { beyond with st := .refused }) ∧
    (e.st = .discharge → e.refusing = false → e.returned = false → e.again = false →
      EntryBecomes .dischargeReaches60V s { beyond with st := .off }) ∧
    (e.st = .discharge → e.refusing = false → e.returned = true → e.again = false → e.holdOff = false → s.autorst = true →
      EntryBecomes .dischargeReaches60V s beyond.precharge) ∧
    (e.st = .discharge → e.refusing = false → e.again = true → e.mainsok = true →
      EntryBecomes .dischargeReaches60V s beyond.precharge) ∧
    (e.st ≠ .discharge → EntryBecomes .dischargeReaches60V s beyond) ∧
    (e.disch = true → e.st ≠ .discharge → EntryBecomes .dischargeEnd s done) ∧
    (e.disch = true → e.st = .discharge → e.refusing = true → EntryBecomes .dischargeEnd s { done with st := .refused }) ∧
    (e.disch = true → e.bleed = false → s.chopen = true → e.chopShort = false → EntryFaults .dischargeAccountEmpty s
      { e with dacc := 0, bleed := true, chopon := true, paused := false, disch := true } 12) ∧
    (e.disch = true → e.bleed = false → (s.chopen = false ∨ e.chopShort = true) → EntryFaults .dischargeAccountEmpty s
      { e with dacc := 0, bleed := false, paused := true, disch := false } 12) ∧
    (e.paused = true → EntryBecomes .dischargeResume s { e with paused := false, disch := true, drew := true, dacc := 40 })

/-- The keep supply and VAUX (R438 to R441): a measurement is taken over; charging needs a source, a plausible sensor
inside 0 to 60 °C for 10 s, and stops at KVMAX; an excursion and a broken sensor are raised once each; with VKEEP lost
the keep domain is lost; VAUX resets nothing. -/
def Sys2Proof.Machine.KeepSupply : Prop :=
  ∀ (s : State),
    let ksrc := fieldN (s.pA 0 0x1800 0) 0 2
    let kvmax := fieldN (s.pA 0 0x1800 0) 16 16
    (∀ (temp : Byte) (v : Half), s.powered = true → 0 ≤ temp.toInt → temp.toInt ≤ 60 → ∃ u,
      exec (.kntcMeasure temp true v) s = .next u ∧ u = { s with keep := u.keep } ∧ u.keep.kntct = temp ∧ u.keep.vkeep = v ∧
        u.keep.kntcok = true ∧ u.keep.out = false ∧ u.keep.rtc = s.keep.rtc ∧ u.keep.ram = s.keep.ram ∧
        (u.keep.kchg = true → ksrc ≠ 0 ∧ 99 ≤ s.keep.okRun ∧ v.toNat < kvmax)) ∧
    (∀ (temp : Byte) (v : Half), s.powered = true → (temp.toInt < 0 ∨ 60 < temp.toInt) → s.keep.out = false → ∃ u,
      exec (.kntcMeasure temp true v) s = .next u ∧ State.RaisedAt { s with keep := { u.keep with ram := s.keep.ram } } .entry 15 u ∧
        u.keep.out = true ∧ u.keep.kchg = false) ∧
    (∀ (temp : Byte) (v : Half), s.powered = true → s.keep.err = false → ksrc ≠ 0 → ∃ u,
      exec (.kntcMeasure temp false v) s = .next u ∧ State.RaisedAt { s with keep := { u.keep with ram := s.keep.ram } } .entry 16 u ∧
        u.keep.err = true ∧ u.keep.kchg = false ∧ u.keep.kntcok = false) ∧
    (s.powered = false → ∃ u, exec .vkeepLoss s = .next u ∧
      u = { s with keep := { s.keep with rtc := u.keep.rtc, ram := u.keep.ram, klost := true, wake := u.keep.wake },
                   free := s.free + 258 }) ∧
    (s.powered = true → exec .vkeepLoss s = .next s) ∧
    ∀ above, exec (.vauxChangeover above) s = .next { s with entry := { s.entry with vauxok := above } }

/-- Discharge, the keep supply and VAUX (R426, R431, R432, R435, R438 to R441). -/
def Obligations.DischargeAndKeepEvents : Prop := DischargeSequence ∧ KeepSupply

/-! ## Reset, power, reference, debug -/

/-- The power entry after a node reset: the PFC stage and the bus run on, the accounts are full, the budget and the
measurements wait for the first update (R80, R421, R422, R431, R443). -/
def Sys2Proof.Machine.entryAfterReset (p : Part) (e : Entry) : Entry :=
  { e with vmains := 0, vbus := 0, pin := 0, pbud := p.budgets.2, dacc := 400, ovacc := 1000, inlim := false, halves := [],
           cands := [], freqAt := none, drew := e.disch }

/-- What outlives every node reset: the part, the name, the power entry's own side, the keep domain, the real-time clock, the MRAM's slots
and boot record, the fuse, the position ring, the carried banks, the pin levels and every bank's own side (R48, R80,
R507, R510, R522, R542, R543). -/
def Sys2Proof.Machine.Outlives (s u : State) : Prop :=
  u.part = s.part ∧ u.isN1 = s.isN1 ∧ u.entry = entryAfterReset s.part s.entry ∧ u.keep = s.keep ∧ u.bankP = s.bankP ∧
    u.nv.slots = s.nv.slots ∧ u.nv.active = s.nv.active ∧ u.nv.trial = s.nv.trial ∧ u.nv.minroll = s.nv.minroll ∧
    u.nv.bootsrc = s.nv.bootsrc ∧ u.nv.fuse = s.nv.fuse ∧ u.nv.ring = s.nv.ring ∧ u.pair.carry = s.pair.carry ∧
    u.nstopLow = s.nstopLow ∧ u.nfltLow = s.nfltLow ∧ u.enPins = s.enPins ∧ u.gpio.lvl = s.gpio.lvl ∧
    (∀ n : AxisId, u.axes[n].loopA = s.axes[n].loopA ∧ u.axes[n].loopB = s.axes[n].loopB ∧ u.axes[n].obs = s.axes[n].obs ∧
      u.axes[n].legs = s.axes[n].legs) ∧
    ∀ b : BankId, u.banks[b].st = s.banks[b].st ∧ u.banks[b].pwm = s.banks[b].pwm ∧ u.banks[b].safe = s.banks[b].safe ∧
      u.banks[b].spares = s.banks[b].spares ∧ u.banks[b].retired = s.banks[b].retired ∧ u.banks[b].kiln = s.banks[b].kiln

/-- What every node reset returns to its reset value: link, mailboxes, fault blocks, parameters, Proofs, engines,
queues, the tick number, the boot state, feedback, emulation, the memory port, the stored set in force and the
counters; the compatibility pin is sampled (R62, R65, R78, R80, R122, R465). -/
def Sys2Proof.Machine.FreshNode (cmpt : Bool) (u : State) : Prop :=
  u.link = { cmptpin := cmpt, sframe := cmpt, sframeF := cmpt } ∧ u.mbx = Vector.replicate 8 {} ∧
    u.blocks = blocksInit u.part ∧ u.nodeP = {} ∧ u.proofs = {} ∧ u.commits = [] ∧ u.auxq = {} ∧ u.auxs = {} ∧ u.kiln = {} ∧
    u.tick = 0 ∧ u.boot = 0 ∧ u.links = false ∧ u.emus = Vector.replicate 4 {} ∧ u.mem = {} ∧ u.perf = {} ∧
    u.nv.restored = false ∧ u.nv.stores = [] ∧
    (∀ n : AxisId, u.axes[n].eng = {} ∧ u.axes[n].cmp = {} ∧ u.axes[n].fol = {} ∧ u.axes[n].str = {} ∧ u.axes[n].obn = {}) ∧
    ∀ b : BankId, u.banks[b].view = .unpowered ∧ u.banks[b].ops = [] ∧ u.banks[b].queue = {} ∧ u.banks[b].mir = {}

/-- Node resets (R78, R80, R324, R438, R475, R477): nRST, the loss and the return of the node's supply, where nSTOP low
forces every bank that has power, and the node-reset reaction, which does not sample CMPT. The class 4 latch and nERR with it outlive a reset, but not the loss of power. -/
def Sys2Proof.Machine.NodeResets : Prop :=
  ∀ (s : State) (cmpt : Bool),
    (s.powered = true → ∃ u, exec (.nrstPulse cmpt) s = .next u ∧ Outlives s u ∧ FreshNode cmpt u ∧
      u.fn.class4 = s.fn.class4 ∧ u.fn.nerrOn = s.fn.class4 ∧ u.fn.log = [] ∧ u.powered = true) ∧
    (s.fn.nodeReset = true → s.fn.class4 = false → ∃ u, exec (.nodeResetReaction cmpt) s = .next u ∧ Outlives s u ∧
      FreshNode s.link.cmptpin u ∧ u.fn.class4 = false ∧ u.fn.nerrOn = s.fn.nerrOn ∧ u.fn.minRun = s.fn.nerrOn ∧ u.fn.nodeReset = false) ∧
    ((s.fn.nodeReset = false ∨ s.fn.class4 = true) → exec (.nodeResetReaction cmpt) s = .next s) ∧
    (s.powered = true → s.entry.vauxok = false → s.entry.supplyUp = false → ∃ u, exec .nodePowerLoss s = .next u ∧
      Outlives { s with entry := { s.entry with chopon := false, pfcOn := false, pfcOv := false } } u ∧
      FreshNode false u ∧ u.powered = false ∧ u.fn = {}) ∧
    ((s.entry.vauxok = true ∨ s.entry.supplyUp = true) → exec .nodePowerLoss s = .next s) ∧
    (s.powered = false → s.nstopLow = false → (∀ b : BankId, b.val < 6 → s.nfltLow.getLsbD b.val = false) → ∃ u,
      exec (.powerOnResetEnd cmpt) s = .next u ∧ Outlives { s with keep := u.keep } u ∧
      u.keep = { s.keep with rtc := u.keep.rtc } ∧ FreshNode cmpt u ∧ u.powered = true) ∧
    (s.powered = false → s.nstopLow = true → ∃ u, exec (.powerOnResetEnd cmpt) s = .next u ∧ u.powered = true ∧
      u.link = { cmptpin := cmpt, sframe := cmpt, sframeF := cmpt } ∧ ∀ b : BankId, s.present b = true →
        s.banks[b].st ≠ .unpowered → u.banks[b].safe.lat.getLsbD 0 = true ∧ u.banks[b].safe.forced = true ∧
          u.statusBit (.bank b) 4 = true)

/-- The reference clock (R43, R475): its loss is REFLOSS, whose node reset follows at once (log 12) unless class 4
stands; it returns after 10 ms, the real-time clock having run on meanwhile (log 48). -/
def Sys2Proof.Machine.ReferenceClock : Prop :=
  ∀ (s : State) (cmpt : Bool),
    (s.refOk = true → s.powered = true → s.fn.class4 = false → (s.block .node).pend.getLsbD 3 = false → ∃ u,
      exec (.referenceLoss cmpt) s = .next u ∧ FreshNode s.link.cmptpin u ∧ u.refOk = false ∧ u.powered = true ∧ u.fn.nodeReset = false) ∧
    (s.refOk = true → s.powered = false → exec (.referenceLoss cmpt) s = .next { s with refOk := false }) ∧
    (s.refOk = false → exec (.referenceLoss cmpt) s = .next s) ∧
    (s.refOk = false → ∃ u, exec .referenceReturn s = .next u ∧
      u = { s with refOk := true, free := s.free + 1, keep := { s.keep with rtc := u.keep.rtc } }) ∧
    (s.refOk = true → exec .referenceReturn s = .next s)

/-- Node resets and the reference clock (R43, R78, R80, R438, R475, R477). -/
def Obligations.ResetEvents : Prop := NodeResets ∧ ReferenceClock

/-- Debug (R120, R324, R326, R476, R543): a halt shows BUSY, completes commands rung and not taken with BUSY, leaves
taken ones waiting, and puts BRAKE on the banks; a blown fuse closes the port; at resumption a held NMI is due and the
taken commands that have ended meanwhile complete. -/
def Sys2Proof.Machine.DebugHaltAndResume : Prop :=
  ∀ (s : State),
    (s.powered = true → s.boot = 1 → s.nv.fuse = false → ∃ u, exec .debugHalt s = .next u ∧ u.boot = 3 ∧ u.haltC4 = false ∧
      u.nodeP = s.nodeP ∧ u.nv = s.nv ∧ u.link = s.link ∧
      ∀ m : MbId, (s.mbx[m].phase = .rung → u.mbx[m] = s.mbx[m].finish 3 (errWords .busy 0)) ∧
        (s.mbx[m].phase ≠ .rung → u.mbx[m] = s.mbx[m])) ∧
    (s.nv.fuse = true → exec .debugHalt s = .next s) ∧
    (s.debugHalted = true → s.noReset = true → ∃ u, exec .debugResume s = .next u ∧ u.boot = 1 ∧
      u.fn = { s.fn with nmiDue := s.fn.nmiDue || s.fn.nmiHeld, nmiHeld := false } ∧ u.nodeP = s.nodeP ∧ u.nv = s.nv ∧
      (∀ (m : MbId) st ws, s.mbx[m].phase = .ended st ws → u.mbx[m] = s.mbx[m].finish st ws) ∧
      ∀ (m : MbId) w, s.mbx[m].phase = .waiting w → u.mbx[m] = s.mbx[m]) ∧
    (s.debugHalted = false → exec .debugResume s = .next s)

/-- Fault reactions (R472 to R477, R480): an NMI that is due is taken, or held while the processor rests; the minimum
of nERR, NERRMIN ms, ends and a release that waits takes effect; block resets that are due are done, none under class 4. -/
def Sys2Proof.Machine.FaultReactions : Prop :=
  ∀ (s : State),
    (s.fn.nmiDue = true → exec .nmiEntry s = .next { s with fn := { s.fn with
      nmiDue := false, nmiHeld := s.fn.nmiHeld || (decide (s.boot = 2) || s.debugHalted) } }) ∧
    (s.fn.minT + s.units < 20 * s.pA 0 0x1200 0 → exec .nerrMinExpire s = .next s) ∧
    (20 * s.pA 0 0x1200 0 ≤ s.fn.minT + s.units → s.fn.minRun = true → s.fn.relPend = true → s.fn.class4 = false → exec .nerrMinExpire s = .next
      { s with fn := { s.fn with minRun := false, nerrOn := false, relPend := false } }) ∧
    (20 * s.pA 0 0x1200 0 ≤ s.fn.minT + s.units → s.fn.minRun = true → (s.fn.relPend = false ∨ s.fn.class4 = true) → exec .nerrMinExpire s = .next
      { s with fn := { s.fn with minRun := false } }) ∧
    (s.fn.class4 = true → exec .blockResetReaction s = .next { s with fn := { s.fn with blockResets := [] } }) ∧
    (∀ i, s.fn.blockResets = [i] → s.fn.class4 = false → i = .kiln ∨ i = .entry ∨ i = .memPort ∨ i = .nvStore →
      (∀ m : MbId, s.mbx[m].phase = .idle) →
      ∃ u, exec .blockResetReaction s = .next u ∧ (u.block i).status = 0 ∧ (u.block i).pend = 0 ∧ u.fn.blockResets = [] ∧
        u.axes = s.axes ∧ u.banks = s.banks ∧ u.entry = s.entry ∧ u.kiln = s.kiln ∧ ∀ j, j ≠ i → u.block j = s.block j)

/-- Debug and fault reactions (R120, R324, R472 to R477, R480, R543). -/
def Obligations.ProcessorEvents : Prop := DebugHaltAndResume ∧ FaultReactions

/-! ## Store, firmware, position log -/

/-- FW_INFO, POSLOG_READ and KEEP_READ answer what the store and the keep domain hold; FUSE_BLOW blows the fuse with
its key in an open window; NV_CLEAR clears the sets, the ring, or both, while every axis is OFF (R510, R543, R544,
R545). -/
def Obligations.StoreCommands : Prop :=
  ∀ (s : State) (m : MbId),
    let w := s.mbx[m].pay 1
    let off := (w.extractLsb' 0 8).toNat
    let n := (w.extractLsb' 8 4).toNat
    let entry := s.nv.ring.find? fun e => !e.gap && decide (e.axis = w.extractLsb' 0 5)
    let cleared : Nv := { s.nv with
      ring := if w.getLsbD 1 then [] else s.nv.ring,
      sets := if w.getLsbD 0 then #v[{}, {}] else s.nv.sets,
      setOk := if w.getLsbD 0 then false else s.nv.setOk,
      setNo := if w.getLsbD 0 then false else s.nv.setNo }
    (s.takes m 2 0x340 .node = true → ∃ u, exec (.fwInfo m) s = .next u ∧ s.Completes m 2 s.nv.info s u) ∧
    (s.takes m 2 0x349 .node = true → ∃ u, exec (.poslogRead m) s = .next u ∧
      s.Completes m 2 (match entry with
        | some e => wordsOf e.bytes
        | none => [0, 0, 0, 0]) s u) ∧
    (s.takes m 2 0x34a .node = true → n ≠ 0 → off % 4 = 0 → off + 4 * n ≤ 256 → ∃ u, exec (.keepRead m) s = .next u ∧
      s.Completes m 2 (wordsOf ((List.range (4 * n)).map fun i => getByte s.keep.ram (off + i))) s u) ∧
    (s.takes m 2 0x34a .node = true → (n = 0 ∨ off % 4 ≠ 0 ∨ 256 < off + 4 * n) → ∃ u, exec (.keepRead m) s = .next u ∧
      s.Completes m 3 (errWords .range 1) s u) ∧
    (s.takes m 2 0x34b .node = true → w = 0x46555345 → s.kiln.open_ = true → ∃ u, exec (.fuseBlow m) s = .next u ∧
      s.Completes m 2 [] { s with nv := { s.nv with fuse := true } } u) ∧
    (s.takes m 2 0x34b .node = true → w ≠ 0x46555345 → ∃ u, exec (.fuseBlow m) s = .next u ∧
      s.Completes m 3 (errWords .range 1) s u) ∧
    (s.takes m 2 0x348 .node = true → (∀ n : AxisId, s.axisPresent n = true → s.axes[n].eng.st = .off) →
      s.kiln.open_ = true → ∃ u, exec (.nvClear m true) s = .next u ∧ s.Completes m 2 [] { s with nv := cleared } u) ∧
    (∀ v, s.takes m 2 0x348 .node = true → (∃ n : AxisId, s.axisPresent n = true ∧ s.axes[n].eng.st ≠ .off) →
      ∃ u, exec (.nvClear m v) s = .next u ∧ s.Completes m 3 (errWords .state 0) s u)

/-- Loading firmware (R521, R524, R525, R544, R545) with the write window open and every write verified: FW_BEGIN puts
a slot that is not locked into LOADING; FW_WRITE and FW_FETCH fill it; FW_VERIFY ends in VALID with the recorded hash,
or in EMPTY with IMAGE and its cause. -/
def Sys2Proof.Machine.FirmwareLoads : Prop :=
  ∀ (s : State) (m : MbId), s.kiln.open_ = true →
    let x := s.mbx[m]
    let b := (x.pay 1).getLsbD 0
    let len := (x.pay 2).toNat
    let off := (x.pay 1).toNat
    let slot := if b then s.nv.slots[1] else s.nv.slots[0]
    let locked : Prop := s.nv.src = slotSrc b ∨ s.nv.trial = some b
    let data : List Byte := (List.range (x.count - 1)).flatMap fun i => bytesOf 4 (x.pay (i + 2)).toNat
    (s.takes m 2 0x341 .node = true → ¬ locked → 200 ≤ len → len ≤ 163840 → len % 8 = 0 → ∃ u,
      exec (.fwBegin m true) s = .next u ∧ s.Completes m 2 [x.pay 1]
        { s with nv := { s.nv.modSlot b (fun y => { y with st := .loading, len := len, hash := 0 }) with loading := some b } } u) ∧
    (∀ v, s.takes m 2 0x341 .node = true → locked → ∃ u, exec (.fwBegin m v) s = .next u ∧
      s.Completes m 3 (errWords .state 1) s u) ∧
    (∀ d, s.takes m 2 0x342 .node = true → s.nv.loading = some d → off % 4 = 0 → off < s.nv.loadLen →
      off + 4 * (x.count - 1) ≤ s.nv.loadLen → ∃ u, exec (.fwWrite m true) s = .next u ∧ s.Completes m 2 []
        { s with nv := s.nv.modSlot d fun y => { y with bytes := putBytes off data y.bytes } } u) ∧
    (∀ v, s.takes m 2 0x342 .node = true → s.nv.loading = none → ∃ u, exec (.fwWrite m v) s = .next u ∧
      s.Completes m 3 (errWords .state 0) s u) ∧
    (s.takes m 2 0x343 .node = true → s.nv.loading ≠ none → ∃ u, exec (.fwFetch m) s = .next u ∧
      s.Pends m .fetch (s.xqueue (.fw m 0 (min 512 s.nv.loadLen)) off (if s.xwen then s.xwSlot else 0)) u) ∧
    (s.takes m 2 0x343 .node = true → s.nv.loading = none → ∃ u, exec (.fwFetch m) s = .next u ∧
      s.Completes m 3 (errWords .state 0) s u) ∧
    (∀ c : ImageCheck, s.takes m 2 0x344 .node = true → ¬ locked → slot.check s.nv.minroll (decide (c.cause ≠ 6)) = 0 → ∃ u,
      exec (.fwVerify m c true) s = .next u ∧
        s.Completes m 2 [slot.version, 0#22 ++ slot.keyIdx.extractLsb' 0 2 ++ slot.rollback]
          { s with nv := { s.nv.modSlot b (fun y => { y with st := .valid, hash := y.bodyHash }) with
            vcause := 0, loading := if s.nv.loading = some b then none else s.nv.loading } } u) ∧
    (∀ c : ImageCheck, s.takes m 2 0x344 .node = true → ¬ locked → slot.check s.nv.minroll (decide (c.cause ≠ 6)) ≠ 0 → ∃ u,
      exec (.fwVerify m c true) s = .next u ∧ s.Completes m 3 (errWords .image 0)
          { s with nv := { s.nv.modSlot b (fun y => { y with st := .empty }) with
            vcause := slot.check s.nv.minroll (decide (c.cause ≠ 6)),
            loading := if s.nv.loading = some b then none else s.nv.loading } } u)

/-- Swapping firmware (R522, R526, R529, R545) with the write window open: FW_SWAP of a VALID slot that does not run
prepares a live swap, under the Starter it boots the slot on trial; FW_CONFIRM ends the trial and raises the least
rollback level; BOOT_CFG writes the boot record. A closed window refuses each with TEMP, a write that does not verify
raises NVFAIL. -/
def Sys2Proof.Machine.FirmwareSwaps : Prop :=
  ∀ (s : State) (m : MbId),
    let x := s.mbx[m]
    let w := x.pay 1
    let b := w.getLsbD 0
    let slot := if b then s.nv.slots[1] else s.nv.slots[0]
    let roll : Byte := if s.nv.minroll.toNat < s.nv.rollback.toNat then s.nv.rollback else s.nv.minroll
    (s.takes m 2 0x345 .node = true → s.kiln.open_ = true → slot.st = .valid → s.nv.src ≠ slotSrc b → s.boot = 1 → ∃ u,
      exec (.fwSwap m true) s = .next u ∧ s.Completes m 2 [0#31 ++ BitVec.ofBool b]
        { s with nv := { s.nv with swap := some ⟨b, false, s.nv.active, s.nv.trial⟩ } } u) ∧
    (s.takes m 2 0x345 .node = true → s.kiln.open_ = true → slot.st = .valid → s.nv.src ≠ slotSrc b → s.boot = 0 → ∃ u,
      exec (.fwSwap m true) s = .next u ∧ s.Completes m 2 [0#31 ++ BitVec.ofBool b]
        { s with nv := { s.nv with chosen := some (slotSrc b), version := slot.version, rollback := slot.rollback,
                                   trial := some b, active := b, trialInfo := 0 } } u) ∧
    (∀ v, s.takes m 2 0x345 .node = true → (slot.st ≠ .valid ∨ s.nv.src = slotSrc b) → ∃ u, exec (.fwSwap m v) s = .next u ∧
      s.Completes m 3 (errWords .state 1) s u) ∧
    (s.takes m 2 0x346 .node = true → s.kiln.open_ = true → s.nv.trial ≠ none → s.boot = 1 → ∃ u,
      exec (.fwConfirm m true) s = .next u ∧ s.Completes m 2 [0#24 ++ roll]
        { s with nv := { s.nv with trial := none, trialInfo := 0, minroll := roll } } u) ∧
    (∀ v, s.takes m 2 0x346 .node = true → s.nv.trial = none → ∃ u, exec (.fwConfirm m v) s = .next u ∧
      s.Completes m 3 (errWords .state 0) s u) ∧
    (s.takes m 2 0x347 .node = true → w.extractLsb' 16 16 ≠ 0 → w.extractLsb' 0 2 ≠ 3 → s.kiln.open_ = true → ∃ u,
      exec (.bootCfg m true) s = .next u ∧ s.Completes m 2 []
        { s with nv := { s.nv with trialTo := (w.extractLsb' 16 16).toNat, bootsrc := w.extractLsb' 0 2, extaddr := x.pay 2 } } u) ∧
    (∀ v, s.takes m 2 0x347 .node = true → w.extractLsb' 16 16 ≠ 0 → w.extractLsb' 0 2 ≠ 3 → s.kiln.open_ = false → ∃ u,
      exec (.bootCfg m v) s = .next u ∧ s.Completes m 3 (errWords .temp 0) s u)

/-- Loading and swapping firmware (R521, R522, R524 to R526, R529, R544, R545). -/
def Obligations.FirmwareCommands : Prop := FirmwareLoads ∧ FirmwareSwaps

/-- The Starter and the firmware start (R65, R477, R515, R518, R522, R523, R529): the Starter sets up the fabric,
clears a lost keep RAM, halts under class 4, and chooses the first image in the boot order that verifies; a trial that
a reset has ended goes back to the other slot (log 40); the firmware shows BOOT 1 and starts the links, where no restored value
halts the node by class 4. -/
def Sys2Proof.Machine.BootSequence : Prop :=
  ∀ (s : State), s.powered = true → s.refOk = true → s.boot = 0 →
    (∀ a b e, s.link.setUp = false → s.fn.class4 = false → ∃ u, exec (.starterBoot a b e) s = .next u ∧
      u.link.setUp = true ∧ u.boot = 0 ∧ (s.keep.klost = true → u.keep.ram = []) ∧ u.nv.slots = s.nv.slots ∧ u.nv.trial = none ∧
      (∀ t, s.nv.trial = some t → u.nv.active = !t) ∧ u.nodeP = s.nodeP ∧ u.mbx = s.mbx ∧ u.axes = s.axes ∧ u.banks = s.banks) ∧
    (∀ a b e, s.link.setUp = false → s.fn.class4 = true → ∃ u, exec (.starterBoot a b e) s = .next u ∧ u.boot = 3 ∧
      u.haltC4 = true ∧ u.nv = s.nv) ∧
    (∀ a b e, s.link.setUp = false → s.fn.class4 = false → s.nv.trial = none → s.nv.bootsrc = 0 → s.nv.active = false →
      s.nv.slots[0].st = .valid → s.nv.slots[0].check s.nv.minroll (decide (a.cause ≠ 6)) = 0 → ∃ u,
        exec (.starterBoot a b e) s = .next u ∧ u.nv.chosen = some .slotA ∧ u.nv.version = s.nv.slots[0].version) ∧
    (∀ src, s.nv.chosen = some src → s.link.setUp = true → s.nv.sets[0].blank = true → s.nv.sets[1].blank = true →
      (∀ m : MbId, s.mbx[m].phase = .idle) → s.applyRestored.boot = 0 → ∃ u, exec .firmwareStart s = .next u ∧ u.boot = 1 ∧ u.links = true ∧
        u.nv.src = src ∧ u.nv.chosen = none ∧ u.nv.restored = true ∧ u.mbx = s.mbx ∧ (s.nodeP = {} → u.fn = s.fn) ∧
        ∀ n : AxisId, u.axes[n].eng.st = s.axes[n].eng.st ∧
          (s.keep.klost = false → n.val < 24 → u.axes[n].eng.pos = s.keep.posAt n.val * 4294967296)) ∧
    (∀ src, s.nv.chosen = some src → s.link.setUp = true → (∀ m : MbId, s.mbx[m].phase = .idle) →
      s.restoreConfig.applyRestored.boot = 0 → ∃ u, exec .firmwareStart s = .next u ∧ u.boot = 1 ∧ u.links = true ∧ u.nv.src = src ∧ u.nv.restored = true) ∧
    (s.nv.chosen = none → exec .firmwareStart s = .next s)

/-- Writing the store (R151, R514, R516, R517): a STORE that verifies counts and comes into force, one that does not
raises NVFAIL and leaves the set in force; a ring entry is written with the next number, or skipped and counted while
the window is closed; a STORE that ends during a debug halt stays PENDING until the processor runs again (R120). -/
def Sys2Proof.Machine.StoreWrites : Prop :=
  ∀ (s : State),
    (∀ r rest, s.nv.stores = r :: rest → s.noReset = true → s.endsNow r.mb = true → ∃ u, exec (.storeComplete true) s = .next u ∧
      u.nv.nstores = s.nv.nstores + 1 ∧ u.nv.setOk = true ∧ u.nv.setNow.records = r.set.records ∧ u.nv.stores = rest ∧
      u.mbx[r.mb].phase = .idle ∧ u.mbx[r.mb].state = 2 ∧ u.nv.ring = s.nv.ring ∧ u.nodeP = s.nodeP ∧ u.axes = s.axes) ∧
    (∀ r rest, s.nv.stores = r :: rest → s.noReset = true → s.endsNow r.mb = true → (s.block .nvStore).pend.getLsbD 2 = false → ∃ u,
      exec (.storeComplete false) s = .next u ∧
      u.nv.nstores = s.nv.nstores ∧ u.nv.setOk = s.nv.setOk ∧ u.nv.setNo = s.nv.setNo ∧ u.nv.stores = rest ∧
      u.statusBit .nvStore 0 = true ∧ u.mbx[r.mb].phase = .idle ∧ u.mbx[r.mb].state = 3 ∧ u.nodeP = s.nodeP) ∧
    (∀ r rest, s.nv.stores = r :: rest → s.debugHalted = true → s.mbx[r.mb].phase = .waiting .store → s.noReset = true → ∃ u ws,
      exec (.storeComplete true) s = .next u ∧ u.nv.setOk = true ∧ u.mbx[r.mb] = { s.mbx[r.mb] with phase := .ended 2 ws }) ∧
    (∀ n off posunk pos rest v, s.nv.ringDue = (n, off, posunk, pos) :: rest → s.kiln.open_ = false →
      exec (.poslogEntryWrite v) s = .next { s with nv := { s.nv with
        ringDue := rest, gapPend := true,
        rskip := if s.nv.rskip = 0xffffffff then 0xffffffff else s.nv.rskip + 1 } }) ∧
    (∀ n off posunk pos rest, s.nv.ringDue = (n, off, posunk, pos) :: rest → s.kiln.open_ = true → s.nv.gapPend = false →
      ∃ u, exec (.poslogEntryWrite true) s = .next u ∧ u = { s with nv := u.nv } ∧ u.nv.ringDue = rest ∧
        u.nv.rhead = s.nv.rhead + 1 ∧ u.nv.ringSeqNo = s.nv.ringSeqNo + 1 ∧
        u.nv.ring.head? = some ⟨s.nv.ringSeqNo + 1, BitVec.ofNat 5 n.val, if off then 1 else 0, posunk, BitVec.ofInt 48 pos,
          s.keep.rtc⟩ ∧ u.nv.ring.tail = s.nv.ring.take 2047) ∧
    (∀ n off posunk pos rest, s.nv.ringDue = (n, off, posunk, pos) :: rest → s.kiln.open_ = true → s.nv.gapPend = true →
      ∃ u, exec (.poslogEntryWrite true) s = .next u ∧ u = { s with nv := u.nv } ∧ u.nv.ringDue = s.nv.ringDue ∧
        u.nv.gapPend = false ∧ (u.nv.ring.head?.map fun e => e.kind) = some 3)

/-- Boot, and the writing of the store (R151, R514 to R518, R522, R523, R529). -/
def Obligations.BootAndStoreEvents : Prop := BootSequence ∧ StoreWrites

/-- A live swap (R120, R121, R526, R527, R529): it pauses once no taken command waits, completing rung ones with BUSY;
the new firmware takes over a slot whose hash still matches, on trial; a swap that takes too long restores the record;
a trial that runs out prepares the swap back. -/
def Obligations.LiveSwap : Prop :=
  ∀ (s : State) (w : FwSwap),
    let slot := if w.slot then s.nv.slots[1] else s.nv.slots[0]
    (s.nv.swap = some w → s.boot = 1 → (∀ m : MbId, s.mbx[m].phase = .idle ∨ s.mbx[m].phase = .rung) → ∃ u, exec .swapPause s = .next u ∧ u.boot = 2 ∧
      u.nv = s.nv ∧ u.axes = s.axes ∧ ∀ m : MbId, u.mbx[m].phase = .idle ∧
        (s.mbx[m].phase = .rung → u.mbx[m] = s.mbx[m].finish 3 (errWords .busy 0))) ∧
    (s.nv.swap = some w → s.boot = 2 → slot.st = .valid → slot.bodyHash = slot.hash → (∀ m : MbId, s.mbx[m].phase = .idle) →
      exec .swapHandover s = .next { s with
        boot := 1, fn := { s.fn with nmiDue := s.fn.nmiDue || s.fn.nmiHeld, nmiHeld := false },
        nv := { s.nv with swap := none, active := w.slot, trial := if w.revert then none else some w.slot,
                          trialInfo := if w.revert then 2 else 0, src := slotSrc w.slot, version := slot.version,
                          rollback := slot.rollback, trialT := 0 } }) ∧
    (s.nv.swap = some w → s.boot = 2 → (slot.st ≠ .valid ∨ slot.bodyHash ≠ slot.hash) → exec .swapHandover s = .next s) ∧
    (s.nv.swap = some w → s.boot = 2 → (∀ m : MbId, s.mbx[m].phase = .idle) →
      exec .swapTimeout s = .next { s with
        boot := 1, fn := { s.fn with nmiDue := s.fn.nmiDue || s.fn.nmiHeld, nmiHeld := false },
        nv := { s.nv with swap := none, active := w.oldActive, trial := w.oldTrial, trialInfo := 3 } }) ∧
    (s.nv.swap = some w → (∃ m w', s.mbx[(m : MbId)].phase = .waiting w') → exec .swapPause s = .next s) ∧
    (∀ b, s.nv.trial = some b → s.boot = 1 → s.nv.swap = none → s.nv.src = slotSrc b →
      20000 * s.nv.trialTo ≤ s.nv.trialT + s.units →
      exec .trialTimeout s = .next { s with nv := { s.nv with swap := some ⟨!b, true, s.nv.active, s.nv.trial⟩ } }) ∧
    (s.nv.trialT + s.units < 20000 * s.nv.trialTo → exec .trialTimeout s = .next s)

/-! ## Sequencer, GPIO, counters -/

/-- The auxiliary sequencer (R379, R384 to R387, R394): a trigger that an armed slot waits for starts its conversion;
one that no armed slot takes is a miss (AMISS once per episode, log 42); a finished conversion enters the queue and
arms the next slot. -/
def Sys2Proof.Machine.SequencerRuns : Prop :=
  ∀ (s : State),
    let a := s.auxs
    let cfg := s.pA 0 0x6800 0
    let starts (c : Instr) : Prop := exec c s = .next { s with auxs := { a with waiting := false, busy := true } }
    (a.running = true → a.waiting = true → s.strg a.slot = 1 → starts .auxTimerTick) ∧
    (a.running = true → a.waiting = true → s.strg a.slot = 0 → starts .auxConversionStart) ∧
    (∀ b c, b.val = fieldN cfg 8 3 → (c = true ↔ fieldN cfg 7 1 = 1) → s.linked b = true → a.running = true → a.waiting = true →
      s.strg a.slot = 3 → starts (.auxPwmSync b c)) ∧
    (a.running = true → (a.waiting = false ∨ s.strg a.slot ≠ 1) → s.auxq.dropTick = false → s.auxq.dropLast = false →
      ∃ u, exec .auxTimerTick s = .next u ∧ State.RaisedAt { s with auxq := { s.auxq with dropTick := true } } .aux 2 u) ∧
    (a.running = true → (a.waiting = false ∨ s.strg a.slot ≠ 1) → (s.auxq.dropTick = true ∨ s.auxq.dropLast = true) →
      exec .auxTimerTick s = .next { s with auxq := { s.auxq with dropTick := true } }) ∧
    (a.running = false → exec .auxTimerTick s = .next s) ∧
    (∀ c0 c1, a.busy = true → s.auxq.en = true → s.auxq.fifo.length < 256 → a.slot + 1 < s.seqn →
      (∀ i, i < 4 → fieldN (s.pA 0 0x6901 (2 * i)) 31 1 = 0) → fieldN (s.pA 0 0x6801 a.slot) 30 2 = 0 →
      exec (.auxConversionDone c0 c1) s = .next { s with
        auxq := { s.auxq with fifo := s.auxq.fifo ++ [auxEntry false a.slot a.pass c0] },
        auxs := { a with slot := a.slot + 1, waiting := true, busy := false } }) ∧
    (∀ c0 c1, a.busy = false → exec (.auxConversionDone c0 c1) s = .next s)

/-- GPIO (R190, R384, R570): a filtered edge shows in its level and starts a slot that waits for it; a compare pulse
starts in the tick for which it is scheduled, extends one that runs, and ends at its width. -/
def Sys2Proof.Machine.GpioAndPulses : Prop :=
  ∀ (s : State) (p : PinId),
    let bit : BitVec 16 := 1#16 <<< p.val
    let a := s.auxs
    let cfg := s.pA 0 0x6800 0
    (∀ level, s.gpio.lvl.getLsbD p.val = level → exec (.gpioEdge p level) s = .next s) ∧
    (∀ level, s.gpio.lvl.getLsbD p.val ≠ level → ∃ u, exec (.gpioEdge p level) s = .next u ∧
      u.gpio.lvl.getLsbD p.val = level ∧ (∀ q : PinId, q ≠ p → u.gpio.lvl.getLsbD q.val = s.gpio.lvl.getLsbD q.val) ∧
      u.gpio.out = s.gpio.out ∧ u.gpio.pulse = s.gpio.pulse ∧ u.nodeP = s.nodeP ∧
      (p.val = fieldN cfg 12 4 → (level = true ↔ fieldN cfg 11 1 = 0) → a.running = true → a.waiting = true →
        s.strg a.slot = 2 → u.auxs = { a with waiting := false, busy := true })) ∧
    (∀ q, s.gpio.due[p] = [q] → q.start < 24000 * s.units → s.gpio.pulse.getLsbD p.val = false →
      exec (.comparePulseStart p) s = .next { s with gpio := { s.gpio with
        due := s.gpio.due.set p.val [], pulse := s.gpio.pulse ||| bit, ends := s.gpio.ends.set p.val (q.start + q.width) } }) ∧
    (∀ q, s.gpio.due[p] = [q] → q.start < 24000 * s.units → s.gpio.pulse.getLsbD p.val = true → ∃ u,
      exec (.comparePulseStart p) s = .next u ∧ u.gpio.pulse = s.gpio.pulse ∧ u.gpio.due[p] = [] ∧
      u.gpio.ends[p] = max s.gpio.ends[p] (q.start + q.width)) ∧
    ((∀ q ∈ s.gpio.due[p], 24000 * s.units ≤ q.start) → exec (.comparePulseStart p) s = .next s) ∧
    (s.gpio.pulse.getLsbD p.val = true → s.gpio.ends[p] ≤ 24000 * s.units → (∀ q ∈ s.gpio.due[p], s.gpio.ends[p] < q.start) →
      exec (.comparePulseEnd p) s = .next { s with gpio := { s.gpio with pulse := s.gpio.pulse &&& ~~~bit } }) ∧
    (24000 * s.units < s.gpio.ends[p] → exec (.comparePulseEnd p) s = .next s)

/-- The auxiliary sequencer and GPIO (R190, R384 to R387, R394, R570). -/
def Obligations.SequencerAndGpioEvents : Prop := SequencerRuns ∧ GpioAndPulses

/-- Sampling and bandwidth (R549 to R554): a sampled instruction takes a record number, and its five words where
tracing is on and they fit, else the record is dropped and counted; the down-counter is loaded again with SINT and up
to SJIT bits; a window's end moves the counts into the results. -/
def Sys2Proof.Machine.SamplingAndBandwidth : Prop :=
  ∀ (s : State),
    let c := s.pA 0 0x1600 0
    let sampled (user : Bool) : Prop := fieldN c 0 1 = 1 ∧ s.boot = 1 ∧
      (fieldN c 4 2 = 0 ∨ (fieldN c 4 2 = 1 ∧ user = true) ∨ (fieldN c 4 2 = 2 ∧ user = false))
    let done (u : State) (p : Perf) : Prop := u = { s with free := s.free + 1, perf := { p with
        recno := s.perf.recno + 1, interval := u.perf.interval } } ∧
      ∃ j, j < 2 ^ fieldN c 8 4 ∧ u.perf.interval = some (s.pA 0 0x1601 0 + j)
    (∀ user addr enc lat stamp, sampled user → s.tren = true → s.perf.fifo.length + 5 ≤ 640 → ∃ (l : List Word) (u : State),
      exec (.sampleIntervalExpire user addr enc lat stamp) s = .next u ∧ done u { s.perf with fifo := s.perf.fifo ++ l } ∧
        l.map (fun w => w.extractLsb' 24 8) = [0xe0#8, 0xe1#8, 0xe2#8, 0xe3#8, 0xe4#8] ∧
        l.head?.map (fun w => w.extractLsb' 16 8) = some s.perf.recno ∧
        l.head?.map (fun w => (w.extractLsb' 0 16).toNat) = some (min 65535 lat.toNat)) ∧
    (∀ user addr enc lat stamp, sampled user → s.tren = true → 640 < s.perf.fifo.length + 5 → ∃ u : State,
      exec (.sampleIntervalExpire user addr enc lat stamp) s = .next u ∧
        done u { s.perf with tdrop := if s.perf.tdrop = 0xffff then 0xffff else s.perf.tdrop + 1 }) ∧
    (∀ user addr enc lat stamp, sampled user → s.tren = false → ∃ u : State,
      exec (.sampleIntervalExpire user addr enc lat stamp) s = .next u ∧ done u s.perf) ∧
    (∀ user addr enc lat stamp, ¬ sampled user → exec (.sampleIntervalExpire user addr enc lat stamp) s = .next s) ∧
    (s.perf.window = true → exec .bandwidthWindowEnd s = .next { s with perf := { s.perf with
      result := s.perf.count, count := Vector.replicate 15 0, bwseq := s.perf.bwseq + 1 } }) ∧
    (s.perf.window = false → exec .bandwidthWindowEnd s = .next s)

/-! ## Kiln, feedback, emulation, step input -/

/-- Kiln's sensors (R446, R448, R449, R451): a phase sensor that has differed for 10 ms is excluded; a die reading
joins the last four, and one out of range is SENSRANGE and closes the window. -/
def Sys2Proof.Machine.KilnSensors : Prop :=
  ∀ (s : State),
    (∀ (b : BankId) (i : Fin 8), s.banks[b].kiln.beyond[i] = true → 200 ≤ s.banks[b].kiln.overT[i] →
      s.banks[b].kiln.broken.getLsbD i.val = false → ∃ u, exec (.sensorBroken b i) s = .next u ∧
        u.banks[b].kiln.broken.getLsbD i.val = true ∧ (∀ j : Fin 8, j ≠ i →
          u.banks[b].kiln.broken.getLsbD j.val = s.banks[b].kiln.broken.getLsbD j.val) ∧ u = { s with banks := u.banks } ∧
        ∀ c : BankId, c ≠ b → u.banks[c] = s.banks[c]) ∧
    (∀ (b : BankId) (i : Fin 8), (s.banks[b].kiln.beyond[i] = false ∨ s.banks[b].kiln.overT[i] < 200) →
      exec (.sensorBroken b i) s = .next s) ∧
    (∀ r : Half, -550 ≤ r.toInt → r.toInt ≤ 2000 → ∃ u, exec (.dieSensorRead r) s = .next u ∧ u = { s with kiln := u.kiln } ∧
      u.kiln.die = (r.toInt :: s.kiln.die).take 4 ∧ (s.kiln.dieBad = false → u.kiln.dieBad = false) ∧
      u.kiln.cones = s.kiln.cones ∧ u.kiln.ksum = s.kiln.ksum) ∧
    (∀ r : Half, (r.toInt < -550 ∨ 2000 < r.toInt) → s.kiln.dieOkRun ≠ 0 → ∃ u, exec (.dieSensorRead r) s = .next u ∧
      State.RaisedAt { s with kiln := u.kiln } .kiln 8 u ∧ u.kiln.open_ = false ∧ u.kiln.cones = s.kiln.cones)

/-- Sampling, bandwidth and Kiln's sensors (R446 to R451, R549 to R554). -/
def Obligations.SamplingAndSensorEvents : Prop := SamplingAndBandwidth ∧ KilnSensors

/-- The state after an event of a channel at a clock, but for what an output that follows the channel may raise (R412, R415):
the channels, the outputs and the clock have changed, no channel but this one, and no output that follows another source.
-/
def Sys2Proof.Machine.ChannelEvent (s : State) (n : FbId) (clock : Nat) (u : State) : Prop :=
  ({ s with fbs := u.fbs, emus := u.emus, clk := clock } : State).FaultFrame u ∧ (∀ k : FbId, k ≠ n → u.fbs[k] = s.fbs[k]) ∧
    ∀ k : EmuId, k ∉ s.outputsOf n → u.emus[k] = s.emus[k]

/-- Incremental feedback (R398, R399, R400, R401, R408, R410, R412): a legal transition steps the count, the track count and
the outputs that follow it by one, an illegal one holds them and is QERR, a state outside HALL's is HERR; an index records
the count; standstill shows in the status once SSTILL ms have passed without a step. -/
def Sys2Proof.Machine.IncrementalFeedback : Prop :=
  ∀ (s : State) (n : FbId),
    let f := s.fbs[n]
    let c := s.fbCfg n
    let turn (a b : Bool) : Nat := (quadPlace a b + 4 - quadPlace f.a f.b) % 4
    let at_ (t : Word) : Nat := max s.clk t.toNat
    let back (a b : Bool) : Bool := decide (turn a b = 3) != c.dirinv
    (∀ a b z t, (c.mode = 1 ∨ c.mode = 4) → c.flen = false → (turn a b = 1 ∨ turn a b = 3) → ∃ u,
      exec (.fbTransition n a b z t) s = .next u ∧ ChannelEvent s n (at_ t) u ∧
        u.fbs[n].count = f.count + (if back a b = true then 0xffffffff else 1) ∧
        u.fbs[n].trk = f.trk + (if back a b = true then 0xffffffff else 1) ∧
        u.fbs[n].a = a ∧ u.fbs[n].b = b ∧ u.fbs[n].z = z ∧ u.fbs[n].dir = back a b ∧ u.fbs[n].still = false ∧
        ∀ k ∈ s.outputsOf n, u.emus[k].e = s.emus[k].e ∧
          u.emus[k].s = s.emus[k].s + (if back a b = true then -4294967296 else 4294967296)) ∧
    (∀ a b z t, (c.mode = 1 ∨ c.mode = 4) → turn a b = 2 → ∃ u, exec (.fbTransition n a b z t) s = .next u ∧
      ChannelEvent s n (at_ t) u ∧ u.statusBit (.fb n) 1 = true ∧ u.fbs[n].count = f.count ∧ u.fbs[n].trk = f.trk ∧
      u.fbs[n].illcnt = if f.illcnt = 0xff then 0xff else f.illcnt + 1) ∧
    (∀ a b z t, c.mode = 2 → hallPlace f.a f.b f.z ≠ 6 → f.valid = true → hallPlace a b z = 6 → ∃ u,
      exec (.fbTransition n a b z t) s = .next u ∧ ChannelEvent s n (at_ t) u ∧ u.statusBit (.fb n) 2 = true ∧
        u.fbs[n].count = f.count ∧ u.fbs[n].valid = false) ∧
    ((c.mode = 1 ∨ c.mode = 4) → (c.igate = false ∨ (f.a = true ∧ f.b = true)) → f.idxRef = none → ∃ u,
      exec (.indexEvent n) s = .next u ∧ ChannelEvent s n s.clk u ∧ u.fbs[n].idxpos = f.count ∧ u.fbs[n].idxev = true ∧
        u.fbs[n].count = f.count) ∧
    (c.mode ≠ 0 → f.stepAt + 240000 * c.sstill ≤ 12000 * s.edgeT + 12000 * s.units → ∃ u, exec (.fbStandstill n) s = .next u ∧
      u = { s with fbs := u.fbs } ∧ u.fbs[n].still = true ∧ u.fbs[n].count = f.count ∧ u.fbs[n].periods = [] ∧
      ∀ k : FbId, k ≠ n → u.fbs[k] = s.fbs[k]) ∧
    ((c.mode = 0 ∨ 12000 * s.edgeT + 12000 * s.units < f.stepAt + 240000 * c.sstill) → exec (.fbStandstill n) s = .next s)

/-- Serial feedback (R402 to R405): a request latches the track count and applies the staged serial parameters; a good
first word sets the count; a bad word and a missing one are SWERR, count, and leave the count alone. -/
def Sys2Proof.Machine.SerialFeedback : Prop :=
  ∀ (s : State) (n : FbId),
    let f := s.fbs[n]
    let c := s.fbCfg n
    let cut (bits : BitVec 64) : BitVec 64 := if c.swlen < 64 then bits &&& BitVec.ofNat 64 (2 ^ c.swlen - 1) else bits
    let failed (u : State) : Prop := ChannelEvent s n s.clk u ∧ u.statusBit (.fb n) 3 = true ∧ u.fbs[n].req = false ∧
      u.fbs[n].count = f.count ∧ u.fbs[n].swfcnt = (if f.swfcnt = 0xff then 0xff else f.swfcnt + 1) ∧
      (c.mode = 3 → u.fbs[n].valid = false)
    (s.nodeP.wf = true → (c.mode = 3 ∨ c.mode = 4) → ∃ u, exec (.serialWordRequest n) s = .next u ∧
      u = { s with fbs := u.fbs, nodeP := u.nodeP } ∧
      u.fbs[n] = { f with req := true, reqAt := 12000 * s.edgeT + 240 * c.srqoff, latch := f.trk } ∧
      ∀ i, 0x5200 ≤ i → i ≤ 0x5204 → u.pA n.val i 0 = s.pS n.val i 0) ∧
    (c.mode ≠ 3 → c.mode ≠ 4 → exec (.serialWordRequest n) s = .next s) ∧
    (∀ bits, f.req = true → c.mode = 3 → wordGood c (cut bits) = true → f.first = true → c.flen = false → ∃ u,
      exec (.serialWordEnd n bits) s = .next u ∧ ChannelEvent s n s.clk u ∧ u.fbs[n].req = false ∧
        u.fbs[n].valid = true ∧ u.fbs[n].count = BitVec.ofNat 32 (msbField (cut bits) c.posoff c.poslen)) ∧
    (∀ bits, f.req = true → wordGood c (cut bits) = false → f.badUp = false → ∃ u,
      exec (.serialWordEnd n bits) s = .next u ∧ failed u) ∧
    (∀ bits, f.req = false → exec (.serialWordEnd n bits) s = .next s) ∧
    (f.req = true → f.badUp = false → ∃ u, exec (.serialWordTimeout n) s = .next u ∧ failed u) ∧
    (f.req = false → exec (.serialWordTimeout n) s = .next s)

/-- Feedback channels (R398 to R405, R408, R410). -/
def Obligations.FeedbackEvents : Prop := IncrementalFeedback ∧ SerialFeedback

/-- Emulation and the step input (R199, R200, R413, R415, R541): a driven output follows its source one step at a time, no two
within EMGAP; an
active edge moves the step accumulator of a present axis by SDMULT in its direction and counts; edges too close
together are SDFAST. -/
def Obligations.EmulationAndSteps : Prop :=
  ∀ (s : State),
    (∀ x : EmuAt, (∀ i, 0x5800 ≤ i → i ≤ 0x5802 → s.pS x.out.val i 0 = s.pA x.out.val i 0) → ∃ u,
      let e := s.emus[x.out]
      let t := max s.clk x.clock
      let b := e.backlog (s.emuCfg x.out) (12000 * s.units) t
      exec (.emulatorStep x) s = .next u ∧ ({ s with emus := u.emus, clk := t } : State).FaultFrame u ∧
        u.emus[x.out].driven = e.driven ∧
        u.emus[x.out].e = e.e + (if b ≠ 0 ∧ e.stepAt + s.pA x.out.val 0x5802 0 ≤ 12000 * s.edgeT + t then b.sign else 0) ∧
        (e.driven = false → u.emus[x.out].e = e.e) ∧ ∀ k : EmuId, k ≠ x.out → u.emus[k] = s.emus[k]) ∧
    (∀ n rising high, n.val < 24 → s.axisPresent n = true → activeEdge (s.followCfg n).edgeSel rising = true → ∃ u,
      exec (.stepEdge n rising high false) s = .next u ∧ u = { s with axes := u.axes } ∧
        u.axes[n].fol.sdpulses = s.axes[n].fol.sdpulses + 1 ∧ u.axes[n].eng = s.axes[n].eng ∧
        ∀ k : AxisId, k ≠ n → u.axes[k] = s.axes[k]) ∧
    (∀ n rising high, n.val < 24 → s.axisPresent n = true → activeEdge (s.followCfg n).edgeSel rising = true → ∃ u,
      exec (.stepEdge n rising high true) s = .next u ∧ u.statusBit (.stream n) 1 = true ∧
        u.axes[n].fol.sdpulses = s.axes[n].fol.sdpulses + 1) ∧
    (∀ n rising high fast, (24 ≤ n.val ∨ activeEdge (s.followCfg n).edgeSel rising = false) → exec (.stepEdge n rising high fast) s = .next s)

/-! ## Memory port -/

/-- MEM_XFER, XBUF_PUT and XBUF_GET (R489, R491, R495, R496): a transfer with a valid format and span is queued behind
the others; the transfer buffer is written and read word by word; an access while a transfer or a program uses it is taken and
waits (R116). -/
def Sys2Proof.Machine.BufferCommands : Prop :=
  ∀ (s : State) (m : MbId),
    let x := s.mbx[m]
    let w := x.pay 1
    let xlen := if fieldN (x.pay 3).toNat 0 15 = 0 then 32768 else fieldN (x.pay 3).toNat 0 15
    let boff := fieldN (x.pay 3).toNat 15 12
    let off := (w.extractLsb' 0 12).toNat
    let n := x.count - 1
    let data : List Byte := (List.range n).flatMap fun i => bytesOf 4 (x.pay (2 + i)).toNat
    let k := (w.extractLsb' 28 4).toNat
    (s.takes m 2 0x300 .memPort = true → formatOk (fieldN (s.pA 0 0x7000 0) 16 2) w.toNat = true →
      xlen % 2 ^ fieldN w.toNat 18 2 = 0 → boff % 4 = 0 → boff + (xlen + 7) / 8 ≤ 4096 → ∃ u, exec (.memXfer m) s = .next u ∧
        s.Pends m .xfer { s with mem := { s.mem with
          waiting := s.mem.waiting ++ [⟨.raw m w boff xlen, (x.pay 2).toNat, BitVec.ofNat 2 (fieldN w.toNat 6 2)⟩] } } u) ∧
    (s.takes m 2 0x300 .memPort = true → formatOk (fieldN (s.pA 0 0x7000 0) 16 2) w.toNat = false → ∃ u,
      exec (.memXfer m) s = .next u ∧ s.Completes m 3 (errWords .range 1) s u) ∧
    (s.takes m 2 0x301 .memPort = true → s.xbufHeld = false → off % 4 = 0 → n ≠ 0 → off + 4 * n ≤ 4096 → ∃ u,
      exec (.xbufPut m) s = .next u ∧
        s.Completes m 2 [] { s with mem := { s.mem with xbuf := putBytes off data s.mem.xbuf } } u) ∧
    (s.takes m 2 0x302 .memPort = true → s.xbufHeld = false → off % 4 = 0 → k ≠ 0 → off + 4 * k ≤ 4096 → ∃ u,
      exec (.xbufGet m) s = .next u ∧ s.Completes m 2 ((List.range k).map fun i => s.mem.xword (off + 4 * i)) s u) ∧
    (∀ c ∈ [(Instr.xbufPut, 0x301), (Instr.xbufGet, 0x302)], s.takes m 2 c.2 .memPort = true → s.xbufHeld = false →
      off % 4 ≠ 0 → ∃ u, exec (c.1 m) s = .next u ∧ s.Completes m 3 (errWords .range 1) s u) ∧
    (s.takes m 2 0x301 .memPort = true → s.xbufHeld = true → off % 4 = 0 → n ≠ 0 → off + 4 * n ≤ 4096 → ∃ u,
      exec (.xbufPut m) s = .next u ∧ s.Pends m .xbuf s u) ∧
    (s.takes m 2 0x302 .memPort = true → s.xbufHeld = true → off % 4 = 0 → k ≠ 0 → off + 4 * k ≤ 4096 → ∃ u,
      exec (.xbufGet m) s = .next u ∧ s.Pends m .xbuf s u)

/-- A write of the transfer buffer reads back word by word, and leaves every other byte alone (R496). -/
def Obligations.BufferReadsBack : Prop :=
  ∀ (l : List Host.Cell) (off : Nat) (data : List Byte) (a : Nat), Memory.wf 0 l = true →
    getByte (putBytes off data l) a =
      if off ≤ a ∧ a < off + data.length then data.getD (a - off) 0 else getByte l a

/-- MEM_PROG and MEM_ERASE (R499, R503, R505, R506) in an enabled window: behind another operation they wait in order;
with the port's operations at rest the first write-enable is queued at once; a closed write window ends them with TEMP
and raises MEMTEMP. -/
def Sys2Proof.Machine.ProgramsStart : Prop :=
  ∀ (s : State) (m : MbId), s.xwen = true →
    let x := s.mbx[m]
    let a := (x.pay 1).toNat
    let n := fieldN (x.pay 2).toNat 16 13
    let boff := fieldN (x.pay 2).toNat 0 12
    let z := (x.pay 2).extractLsb' 0 2
    let progOk : Prop := s.takes m 2 0x303 .memPort = true ∧ n ≠ 0 ∧ n ≤ 4096 ∧ boff + n ≤ 4096 ∧ s.inWindow a n = true
    let eraseOk : Prop := s.takes m 2 0x304 .memPort = true ∧
      (z = 3 ∨ (a % eraseSize z = 0 ∧ s.inWindow a (eraseSize z) = true))
    let prog (act : Bool) : ProgRun := ⟨m, a, boff, n, 0, none, act⟩
    let erase (act : Bool) : ProgRun := ⟨m, a, 0, 0, 0, some ((x.pay 2).extractLsb' 24 8, z), act⟩
    let within (u : State) : Prop := u = { s with mbx := u.mbx, mem := u.mem, nodeP := u.nodeP, perf := u.perf } ∧
      u.mbx[m].phase = .waiting .prog ∧ u.nodeP.staged = s.nodeP.staged ∧ u.mem.xbuf = s.mem.xbuf
    (s.mem.wpage = none → s.mem.runs ≠ [] → s.mem.opRuns = true →
      (progOk → ∃ u, exec (.memProg m) s = .next u ∧ within u ∧ u.mem.runs = s.mem.runs ++ [prog false]) ∧
      (eraseOk → ∃ u, exec (.memErase m) s = .next u ∧ within u ∧ u.mem.runs = s.mem.runs ++ [erase false])) ∧
    (s.mem.wpage = none → s.mem.runs = [] → s.mem.opRuns = false → s.kiln.open_ = true →
      (progOk → ∃ u o, exec (.memProg m) s = .next u ∧ within u ∧ u.mem.runs = [prog true] ∧
        u.mem.waiting = s.mem.waiting ++ [⟨.wren o, o.addr, o.slot⟩] ∧ o.mb = some m ∧ o.erase = none ∧ o.addr = a % 4294967296) ∧
      (eraseOk → ∃ u o, exec (.memErase m) s = .next u ∧ within u ∧ u.mem.runs = [erase true] ∧
        u.mem.waiting = s.mem.waiting ++ [⟨.wren o, o.addr, o.slot⟩] ∧ o.mb = some m ∧ o.addr = a ∧ o.data = [])) ∧
    (s.mem.wpage = none → s.mem.runs = [] → s.mem.opRuns = false → s.kiln.open_ = false →
      (progOk → ∃ u, exec (.memProg m) s = .next u ∧ u.mbx[m].state = 3 ∧ u.mbx[m].phase = .idle ∧ u.mem.runs = [] ∧
        u.mem.waiting = s.mem.waiting ∧ (s.mem.refused = false → u.statusBit .memPort 1 = true)) ∧
      (eraseOk → ∃ u, exec (.memErase m) s = .next u ∧ u.mbx[m].state = 3 ∧ u.mbx[m].phase = .idle ∧ u.mem.runs = [] ∧
        u.mem.waiting = s.mem.waiting ∧ (s.mem.refused = false → u.statusBit .memPort 1 = true)))

/-- The memory port's commands (R489, R491, R495, R496, R499, R503, R505, R506). -/
def Obligations.MemoryCommands : Prop := BufferCommands ∧ ProgramsStart

/-- The mapped window (R499, R500, R502, R503): a disabled window reads 0 and drops stores; a read is served from the
line buffer or asks for its line; a store enters the write buffer of its page, which is flushed as one program
operation, or refused with MEMTEMP while the write window is closed. -/
def Sys2Proof.Machine.MappedWindow : Prop :=
  ∀ (s : State) (o : BitVec 28),
    let a := s.extOf o.toNat
    let page := a / s.xpage * s.xpage
    (s.xwen = false → exec (.windowRead o) s = .next { s with mem := { s.mem with readData := 0 } }) ∧
    (s.xwen = false → ∀ l, exec (.windowStore o l) s = .next s) ∧
    (∀ l, s.xwen = true → s.mem.wpage = none → s.mem.readWait = [] → s.mem.line? a = some l →
      exec (.windowRead o) s = .next { s with mem := { s.mem with readData := lineWord l a } }) ∧
    (s.xwen = true → s.mem.wpage = none → s.mem.readWait = [] → s.mem.line? a = none → s.mem.filling a = false →
      exec (.windowRead o) s = .next { s with mem := { s.mem with
        readWait := [a], waiting := s.mem.waiting ++ [⟨.fill, a / 32 * 32, s.xwSlot⟩] } }) ∧
    (∀ v, s.xwen = true → (s.mem.wpage = none ∨ s.mem.wpage = some page) →
      exec (.windowStore o [v]) s = .next { s with mem := { s.mem with
        wpage := some page, wbuf := cellSet 0xff (a - page) v s.mem.wbuf } }) ∧
    (∀ p, s.mem.wpage = some p → s.kiln.open_ = true → ∃ u q, exec .writeBufferFlush s = .next u ∧
      u = { s with mem := u.mem, nodeP := u.nodeP } ∧ u.mem.wpage = none ∧ u.mem.wbuf = [] ∧
      u.mem.waiting = s.mem.waiting ++ [⟨.wren q, p, s.xwSlot⟩] ∧ q.addr = p ∧ q.mb = none ∧
      q.data = s.mem.pageData s.xpage) ∧
    (∀ p, s.mem.wpage = some p → s.kiln.open_ = false → s.mem.refused = false → ∃ u, exec .writeBufferFlush s = .next u ∧
      State.RaisedAt { s with mem := u.mem, nodeP := u.nodeP } .memPort 1 u ∧ u.mem.waiting = s.mem.waiting ∧
      u.mem.xaddr = BitVec.ofNat 32 p) ∧
    (s.mem.wpage = none → exec .writeBufferFlush s = .next s)

/-- Transfers (R490, R491, R495, R497, R503): the request chosen leaves the queue and runs; its end serves it: a
write-enable is followed by its program, a program makes its slot busy, a fill enters the line buffer, a raw read
enters the transfer buffer and completes its command. -/
def Sys2Proof.Machine.TransfersRun : Prop :=
  ∀ (s : State) (addr : Nat) (slot : BitVec 2) (rx : List Byte) (holds : Half) (v : Bool),
    let ended (u : State) (f : MemPort → MemPort) : Prop := u = { s with
      mem := f { s.mem with cur := none, frame := none, csHeld := 0, xholds := s.mem.xholds + holds.setWidth 32 },
      perf := { s.perf with count := u.perf.count } }
    (∀ r, s.mem.cur = none → s.mem.choose = some r → ∃ u, exec .transferStart s = .next u ∧ u.mem.cur = some r ∧
      r ∈ s.mem.waiting ∧ s.mem.free r = true ∧ u.mem.frame.isSome = true) ∧
    (∀ r, s.mem.cur = none → s.mem.choose = some r → s.mem.wpage = none → ∃ u, exec .transferStart s = .next u ∧
      u = { s with mem := u.mem, nodeP := u.nodeP } ∧ u.mem.waiting = s.mem.waiting.erase r ∧
      u.nodeP.staged = s.nodeP.staged ∧ u.mem.frame = some (u.frameOf r)) ∧
    ((s.mem.cur ≠ none ∨ s.mem.choose = none) → exec .transferStart s = .next s) ∧
    (∀ o, s.mem.cur = some ⟨.wren o, addr, slot⟩ → ∃ u, exec (.transferEnd rx holds v) s = .next u ∧
      ended u fun p => { p with waiting := p.waiting ++ [⟨.prog o, o.addr, o.slot⟩] }) ∧
    (∀ o, s.mem.cur = some ⟨.prog o, addr, slot⟩ → ∃ u, exec (.transferEnd rx holds v) s = .next u ∧
      ended u fun p => { p with busy := p.busy.set o.slot.toNat (some o) }) ∧
    (s.mem.cur = some ⟨.fill, addr, slot⟩ → s.mem.readWait = [] → ∃ u, exec (.transferEnd rx holds v) s = .next u ∧
      ended u fun p => { p with lines := ((addr, (List.range 32).map fun i => rx.getD i 0) :: p.lines).take 16 }) ∧
    (∀ m fmt boff xlen, s.mem.cur = some ⟨.raw m fmt boff xlen, addr, slot⟩ → fmt.getLsbD 4 = false →
      s.mbx[m].phase = .waiting .xfer → s.noReset = true → ∃ u, exec (.transferEnd rx holds v) s = .next u ∧
        u.mbx[m] = s.mbx[m].finish 2 [0#16 ++ holds] ∧ u.mem.cur = none ∧
        u.mem.xbuf = (s.mem.rawRead boff xlen rx).xbuf ∧ u.axes = s.axes) ∧
    (s.mem.cur = none → exec (.transferEnd rx holds v) s = .next s)

/-- Polls, limits and point fetches (R203, R209, R497, R504): every busy slot gets a poll; an operation past its limit
raises MEMTIMEOUT and frees its slot; a stream's fetch is requested at its next address; one that fails leaves the
queue, raises its flag and is tried again. -/
def Sys2Proof.Machine.PollsAndFetches : Prop :=
  ∀ (s : State),
    (∃ u, exec .statusPoll s = .next u ∧ u = { s with mem := { s.mem with waiting := u.mem.waiting } } ∧
      (∀ r ∈ s.mem.waiting, r ∈ u.mem.waiting) ∧
      ∀ c : BitVec 2, s.mem.busy[c.toNat].isSome = true → ∃ r ∈ u.mem.cur.toList ++ u.mem.waiting, r.kind = .poll c) ∧
    (∀ o : ProgOp, s.mem.busy[o.slot.toNat] = some o → (∀ c : BitVec 2, c ≠ o.slot → s.mem.busy[c.toNat] = none) →
      s.opLimit o ≤ o.t → o.mb = none → s.mem.runs = [] → s.mem.readWait = [] → ∃ u, exec .operationTimeout s = .next u ∧
        State.RaisedAt { s with mem := u.mem } .memPort 0 u ∧ u.mem.busy[o.slot.toNat] = none ∧
        u.mem.xaddr = BitVec.ofNat 32 o.addr ∧ u.mem.polls = BitVec.ofNat 8 (min 255 o.polls)) ∧
    ((∀ c : BitVec 2, s.mem.busy[c.toNat] = none) → exec .operationTimeout s = .next s) ∧
    (∀ (n : AxisId) (k : Nat) (f : Feed), s.axes[n].str.fetchDue (s.followCfg n).squota = some k →
      s.axes[n].str.feed = some f → f.retry = false → s.mem.wpage = none → s.feedAddr f + 8 * k ≤ 4294967296 →
      exec (.streamFetch n) s = .next { (s.modAxis n fun x =>
          { x with str := { x.str with feed := some { f with busy := true, retry := false } } }) with
        mem := { s.mem with waiting := s.mem.waiting ++ [⟨.fetch n k, s.feedAddr f, s.xwSlot⟩] } }) ∧
    (∀ n : AxisId, s.axes[n].str.fetchDue (s.followCfg n).squota = none → exec (.streamFetch n) s = .next s) ∧
    (∀ (n : AxisId) (f : Feed), s.mem.fetchWaits n = true → s.axes[n].str.feed = some f → ∃ u, exec (.fetchFail n) s = .next u ∧
      State.RaisedAt { s with mem := u.mem, axes := u.axes } (.stream n) 6 u ∧ u.mem.fetchWaits n = false ∧
      u.axes[n].str.feed = some { f with busy := false, retry := true })

/-- The mapped window, transfers, polls and fetches (R203, R209, R490 to R504). -/
def Obligations.MemoryEvents : Prop := MappedWindow ∧ TransfersRun ∧ PollsAndFetches

/-! ## The pair -/

/-- Heartbeats and the mirrored set (R534, R535, R537): a heartbeat carries the boot state, class 4, the tick and
every axis; one received counts unless it shows class 4; an interval without one counts up, and the third is PARTLOST.
-/
def Sys2Proof.Machine.Heartbeats : Prop :=
  ∀ (s : State), s.part = .g24t → s.powered = true → s.refOk = true →
    let p := s.pair
    (∃ u r, exec .heartbeatSend s = .next u ∧ u = { s with pair := { p with sent := some (s.boot, s.fn.class4, BitVec.ofNat 16 s.tick, r) } } ∧
      ∀ n : Fin 24, r[n] = (s.axes[(Fin.ofNat 48 n.val : AxisId)]).report) ∧
    (∀ boot tick axes, exec (.heartbeatReceive boot false tick axes) s = .next { s with pair := { p with
      pboot := boot, pclass4 := false, ptick := tick, reports := some axes, counted := true, hbmiss := 0, palive := true } }) ∧
    (∀ boot tick axes, exec (.heartbeatReceive boot true tick axes) s = .next { s with pair := { p with
      pboot := boot, pclass4 := true, ptick := tick, reports := some axes } }) ∧
    (∀ layout l, exec (.mirroredSetReceive layout l) s = .next { s with pair := { p with mirror := some (layout, l) } }) ∧
    (∀ q, p.counted = true → exec (.heartbeatIntervalEnd q) s = .next { s with pair := { p with counted := false } }) ∧
    (∀ q, p.counted = false → p.hbmiss = 0 → exec (.heartbeatIntervalEnd q) s = .next { s with pair := { p with hbmiss := 1 } }) ∧
    (∀ q, p.counted = false → p.hbmiss = 2 → s.takeen = false → ∃ u, exec (.heartbeatIntervalEnd q) s = .next u ∧
      State.RaisedAt { s with pair := { p with hbmiss := 3, palive := false } } .node 2 u)

/-- Takeover (R536, R537, R542): the third missed interval with TAKEEN takes every bank of the partner whose link is
silent, in orphan state, its axes OFF at their last reported positions, and raises TAKEOVER. -/
def Sys2Proof.Machine.TakeoverTakesBanks : Prop :=
  ∀ (s : State) (silent : BitVec 6), s.part = .g24t → s.powered = true → s.refOk = true → s.pair.counted = false →
    s.pair.hbmiss = 2 → s.takeen = true → s.links = true → s.pair.carry = 0 → s.takeable silent ≠ [] →
    ∃ u, exec (.heartbeatIntervalEnd silent) s = .next u ∧ u.pair.carry = 1 ∧ u.pair.hbmiss = 3 ∧ u.statusBit .node 3 = true ∧
      ∀ b ∈ s.takeable silent, u.pair.tbanks.getLsbD b.val = true ∧ u.banks[partnerBank b].view = .orphan ∧
        ∀ p : Pos, u.axes[axisAt (partnerBank b) p].eng.st = .off ∧
          ∀ l, s.pair.reports = some l → u.axes[axisAt (partnerBank b) p].eng.pos = (reportAt l b p).pos * 4294967296

/-- PAIR_HANDOVER and PAIR_RELEASE wait for the edge at which the banks leave; a partner that is not ready or axes
that move refuse them; banks that arrive carry their positions (R538, R539). -/
def Sys2Proof.Machine.HandOver : Prop :=
  ∀ (s : State) (m : MbId), s.part = .g24t →
    let p := s.pair
    (s.takes m 2 0x34c .node = true → s.axesCalm ownBanks = true → p.palive = true → p.pboot = 1 → p.partnerTakes = true →
      p.carry = 0 → p.handing = none → ∃ u, exec (.pairHandover m) s = .next u ∧
        s.Pends m .handover { s with pair := { p with handing := some (m, false) } } u) ∧
    (s.takes m 2 0x34d .node = true → s.axesCalm s.carried = true → p.palive = true → p.pboot = 1 → p.carry = 1 →
      p.handing = none → ∃ u, exec (.pairRelease m) s = .next u ∧
        s.Pends m .handover { s with pair := { p with handing := some (m, true) } } u) ∧
    (∀ c ∈ [(Instr.pairHandover, 0x34c), (Instr.pairRelease, 0x34d)], s.takes m 2 c.2 .node = true →
      (p.palive = false ∨ p.pboot ≠ 1) → ∃ u, exec (c.1 m) s = .next u ∧ s.Completes m 3 (errWords .state 0) s u) ∧
    (∀ values axes, s.powered = true → s.refOk = true → s.links = true → p.carry = 0 → s.takeen = true → ∃ u,
      exec (.handOverReceive values axes) s = .next u ∧ u.pair.carry = 1 ∧ u.pair.tbanks = 0x3f) ∧
    (∀ values axes, s.powered = true → s.refOk = true → s.links = true → p.carry = 2 → ∃ u,
      exec (.handOverReceive values axes) s = .next u ∧ u.pair.carry = 0) ∧
    (∀ values axes, s.links = false → exec (.handOverReceive values axes) s = .next s)

/-- Heartbeats, takeover and hand-over (R534 to R539, R542). -/
def Obligations.PairEvents : Prop := Heartbeats ∧ TakeoverTakesBanks ∧ HandOver

/-! ## Host link -/

/-- u is s with another state of the link, and with bytes counted at its port. -/
def Sys2Proof.Machine.LinkIs (s u : State) (l : Link) : Prop :=
  u = { s with link := l, perf := { s.perf with count := u.perf.count } }

/-- The state in which a received word is judged: its transaction begun, its bytes counted (R74, R553). -/
def Sys2Proof.Machine.heard (s : State) (nth : Nat) : State :=
  (s.beginWord nth).countBytes 0 (s.link.begin nth).wordBytes

/-- A write of one word (R55, R59, R60, R64, R66, R68, R71, R72): accepted it is posted, not accepted it is counted
and changes nothing else; a partial word is discarded and counted; a privileged page discards it; the first word for
PAGE selects the page. -/
def Sys2Proof.Machine.HostWritesArePosted : Prop :=
  ∀ (s : State) (slot : Slot) (word : Word), s.powered = true → slot.index ≠ 0x7f →
    let l := s.link.begin slot.nth
    let i := slot.index.toNat + slot.nth
    let bad : Link := { l with rej := true, rejcnt := if l.rejcnt = 0xff then 0xff else l.rejcnt + 1, wres := 2 }
    let cut : Link := { l with part := true, partcnt := if l.partcnt = 0xff then 0xff else l.partcnt + 1 }
    (∀ j d m, privileged s.part s.link.page = false → l.place i word = some (j, d, m) →
      (heard s slot.nth).accepts l.page j d m = true → ∃ u, exec (.hostWrite slot word false) s = .next u ∧ LinkIs s u
        { l with wres := if l.wres = 2 then 2 else 1, posted := l.posted ++ [⟨l.page, j, d, m⟩] }) ∧
    (∀ j d m, privileged s.part s.link.page = false → l.place i word = some (j, d, m) →
      (heard s slot.nth).accepts l.page j d m = false → ∃ u, exec (.hostWrite slot word false) s = .next u ∧ LinkIs s u bad) ∧
    (privileged s.part s.link.page = false → l.place i word = none → ∃ u, exec (.hostWrite slot word false) s = .next u ∧
      LinkIs s u bad) ∧
    (privileged s.part s.link.page = true → slot.index ≠ 0 ∨ windowOf s.link.page = none → ∃ u, exec (.hostWrite slot word false) s = .next u ∧
      LinkIs s u { l with winerr := true }) ∧
    (i ≤ 0x7e → ∃ u, exec (.hostWrite slot word true) s = .next u ∧ LinkIs s u cut) ∧
    (slot.nth = 0 → ∃ u, exec (.pageWrite 0 word false) s = .next u ∧
      LinkIs s u { s.link.begin 0 with wres := if s.link.wres = 2 then 2 else 1, page := word.extractLsb' 0 8 }) ∧
    (slot.nth ≠ 0 → ∃ u, exec (.pageWrite slot.nth word false) s = .next u ∧ LinkIs s u bad)

/-- The landing of the oldest posted write of a page (R82, R84, R97, R110, R465, R478): it counts, it leaves the
queue, and its bits replace those of its register; a page with none changes nothing. -/
def Sys2Proof.Machine.PostedWritesLand : Prop :=
  ∀ (s : State) (page : Byte),
    ((∀ p ∈ s.link.posted, p.page ≠ page) → exec (.writeLands page) s = .next s) ∧
    ∀ p, (s.link.posted.find? fun q => q.page = page) = some p →
      let gone : Link := { s.link with posted := s.link.posted.erase p, landed := s.link.landed + 1 }
      let r := { s with link := gone }.regAt page p.index
      let v (old : Word) : Word := (p.data &&& p.mask) ||| (old &&& ~~~p.mask)
      (∀ m k, r = .cmd m k → exec (.writeLands page) s =
        .next { (s.modMb m fun y => { y with cmd := y.cmd.set k.val (v s.mbx[m].cmd[k]) }) with link := gone }) ∧
      (∀ k, r = .ie k → exec (.writeLands page) s =
        .next { s with link := gone, fn := { s.fn with ie := s.fn.ie.set k.val (v s.fn.ie[k] &&& ieMask k.val) } }) ∧
      (∀ b, r = .fen b → exec (.writeLands page) s = .next { (s.modBlock b fun f =>
        { f with fen := (v f.fen &&& sourceMask (b.kind.sources s.part)) |||
          sourceMask ((b.kind.sources s.part).filter fun q => q.2 = 3) }) with link := gone }) ∧
      (∀ n, r = .cmpint n → exec (.writeLands page) s =
        .next { (s.modAxis n fun a => { a with cmp := { a.cmp with int := v s.axes[n].cmp.int } }) with link := gone }) ∧
      (r = .kpstat → exec (.writeLands page) s =
        .next { s with link := gone, keep := { s.keep with klost := s.keep.klost && !(p.data &&& p.mask).getLsbD 1 } }) ∧
      (r = .nothing → exec (.writeLands page) s = .next { s with link := gone })

/-- Writes over the host link and their landing (R55, R59, R60, R64, R66, R68, R71, R72, R82, R84, R97). -/
def Obligations.LinkWrites : Prop := HostWritesArePosted ∧ PostedWritesLand

/-- The node has power, no write of a page is posted, the page is selected, and the framing native: the named rows' own word
is the next to land. -/
def Sys2Proof.Machine.pageQuiet (s : State) (page : Byte) : Prop :=
  s.powered = true ∧ s.link.page = page ∧ s.link.sframe = false ∧ ∀ p ∈ s.link.posted, p.page ≠ page

/-- The link after a word of a named register has landed at once behind the earlier writes of its page. -/
def Sys2Proof.Machine.landedAt (s : State) : Link :=
  { s.link.begin 0 with wres := if s.link.wres = 2 then 2 else 1, landed := s.link.landed + 1 }

/-- Writes of page 0x00 and 0x01 (R74, R316, R317, R318, R480): HLCFG sets the lanes and COMPAT the framing of the
next transaction; BATCH requests the apply flag of every present bank in reach that it names and counts the others as
dropped; RELEASE lets nERR go, or is kept until its minimum time ends. -/
def Sys2Proof.Machine.NodeRegisterWrites : Prop :=
  ∀ (s : State) (w : Word),
    (pageQuiet s 0 → w.extractLsb' 4 2 ≠ 3 → w.extractLsb' 0 2 ≠ 3 → ∃ u, exec (.hlcfgWrite w) s = .next u ∧
      LinkIs s u { landedAt s with dlanes := w.extractLsb' 4 2, clanes := w.extractLsb' 0 2 }) ∧
    (pageQuiet s 0 → (w.extractLsb' 4 2 = 3 ∨ w.extractLsb' 0 2 = 3) → ∃ u, exec (.hlcfgWrite w) s = .next u ∧
      u.link.dlanes = s.link.dlanes ∧ u.link.clanes = s.link.clanes ∧ u.link.rej = true ∧ u.link.wres = 2) ∧
    (pageQuiet s 0 → ∃ u, exec (.compatWrite w) s = .next u ∧ LinkIs s u { landedAt s with sframe := w.getLsbD 0 }) ∧
    (pageQuiet s 1 → ∃ u, exec (.batchWrite w) s = .next u ∧ u.link = landedAt s ∧ u.axes = s.axes ∧ u.nodeP = s.nodeP ∧
      ∀ b : BankId, b.val < 6 →
        (w.getLsbD b.val = true → s.present b = true → s.linked b = true →
          u.banks[b] = { s.banks[b] with batches := s.banks[b].batches ++ [s.opSeq] } ∧ u.bdrop.getLsbD b.val = s.bdrop.getLsbD b.val) ∧
        (w.getLsbD b.val = true → s.present b = true → s.linked b = false →
          u.banks[b] = s.banks[b] ∧ u.bdrop.getLsbD b.val = true) ∧
        ((w.getLsbD b.val = false ∨ s.present b = false) →
          u.banks[b] = s.banks[b] ∧ u.bdrop.getLsbD b.val = s.bdrop.getLsbD b.val)) ∧
    (pageQuiet s 1 → w.getLsbD 0 = true → s.fn.class4 = false → s.fn.nerrOn = true → ∃ u, exec (.nerrRelease w) s = .next u ∧
      u.blocks = s.blocks ∧ u.fn = (if s.fn.minRun then { s.fn with relPend := true }
        else { s.fn with nerrOn := false, relPend := false })) ∧
    (pageQuiet s 1 → (w.getLsbD 0 = false ∨ s.fn.class4 = true ∨ s.fn.nerrOn = false) → ∃ u,
      exec (.nerrRelease w) s = .next u ∧ u.fn = s.fn ∧ u.blocks = s.blocks)

/-- Writes of fault registers (R465, R467, R470): FACK acknowledges pending classes and their line and leaves the
status; FRX stores the codes of the group selected, each at most the highest of its class, or with bit 29 selects the
group alone. -/
def Sys2Proof.Machine.FaultRegisterWrites : Prop :=
  ∀ (s : State) (slot : Slot) (w : Word) (b : BlockId), slot.nth = 0 → slot.index.toNat ≤ 0x7e →
    pageQuiet s s.link.page →
    (s.regAt s.link.page slot.index.toNat = .fack b → ∃ u, exec (.faultAcknowledge slot w) s = .next u ∧
      (u.block b).pend = (s.block b).pend &&& ~~~(w.extractLsb' 0 4) ∧
      (u.block b).line = (s.block b).line &&& ~~~(w.extractLsb' 0 4) ∧ (u.block b).status = (s.block b).status ∧
      (u.block b).codes = (s.block b).codes ∧ (∀ j, j ≠ b → u.block j = s.block j) ∧ u.fn = s.fn ∧ u.banks = s.banks) ∧
    (s.regAt s.link.page slot.index.toNat = .frx b → ∃ u, exec (.frxWrite slot w) s = .next u ∧
      (u.block b).grp = w.extractLsb' 30 2 ∧
      (w.getLsbD 29 = true → (u.block b).codes = (s.block b).codes) ∧
      (w.getLsbD 29 = false → (u.block b).codes = (s.block b).codes.set (w.extractLsb' 30 2).toNat
        (codesStored (b.kind.sources s.part) (w.extractLsb' 30 2).toNat (w.extractLsb' 0 24))) ∧
      (u.block b).status = (s.block b).status ∧ (∀ j, j ≠ b → u.block j = s.block j) ∧ u.fn = s.fn) ∧
    ((∀ c, s.regAt s.link.page slot.index.toNat ≠ .fack c) → ∃ u, exec (.faultAcknowledge slot w) s = .next u ∧ u.blocks = s.blocks)

/-- Writes of named registers (R74, R316 to R318, R465, R467, R470, R480). -/
def Obligations.NamedRegisterWrites : Prop := NodeRegisterWrites ∧ FaultRegisterWrites

/-- No two codes of R467 pass the highest of their class. -/
def Obligations.CodesAreClamped : Prop :=
  ∀ (p : Part) (k : BlockKind) (g : Nat) (v : BitVec 24) (i c : Nat), i < 8 → (8 * g + i, c) ∈ k.sources p →
    ((codesStored (k.sources p) g v).extractLsb' (3 * i) 3).toNat = min ((v.extractLsb' (3 * i) 3).toNat) (maxCode c)

/-- A ring (R110 to R113, R120): an idle mailbox takes its command words, counts the ring, shows PENDING with the
header's fields and clears the other response words; while the firmware pauses it completes BUSY, under class 4
HALTED. A mailbox in use refuses the ring: REFUSED is set, REFCNT counts, RINGREFUSED (class 0) is raised, the write
is accepted, and the command and its buffers stay. -/
def Obligations.MailboxRings : Prop :=
  ∀ (s : State) (m : MbId) (w : Word), pageQuiet s (BitVec.ofNat 8 (0x10 + m.val)) → w.getLsbD 0 = true →
    let x := s.mbx[m]
    (x.phase = .idle → ∃ u, exec (.mailboxRing m w) s = .next u ∧ u.mbx[m].copy = x.cmd ∧ u.mbx[m].cmd = x.cmd ∧
      u.mbx[m].ringcnt = x.ringcnt + 1 ∧ u.mbx[m].ien = w.getLsbD 8 ∧ u.ringSeq = s.ringSeq + 1 ∧
      (u.mbx[m].phase = .rung → u.mbx[m].ring = s.ringSeq ∧
        u.mbx[m].rsp[0] = 1#2 ++ 0#6 ++ x.cmd[0].extractLsb' 0 24 ∧ ∀ i : Nat, (h : i < 15) → u.mbx[m].rsp[i + 1] = 0) ∧
      (u.mbx[m].phase ≠ .rung → u.mbx[m].phase = .idle ∧ u.mbx[m].state = 3) ∧
      (s.boot = 2 → u.mbx[m].phase = .idle ∧ u.mbx[m].rsp[1] = 0x12) ∧
      (s.boot = 3 → s.haltC4 = true → u.mbx[m].phase = .idle ∧ u.mbx[m].rsp[1] = 0x13)) ∧
    (x.phase ≠ .idle → ∃ u, exec (.mailboxRing m w) s = .next u ∧ u.mbx[m] = { x with
        refused := true, refcnt := if x.refcnt = 0xff then 0xff else x.refcnt + 1, ien := w.getLsbD 8 } ∧
      u.statusBit .mailboxEngine 0 = true ∧ classOf s.part .mailboxEngine 0 = some 0 ∧
      u.link.landed = s.link.landed + 1 ∧ u.link.rej = s.link.rej)

/-- Position pairs (R85, R86, R191, R597): the low word is held until the high word commits both, a position outside
48 bits is not accepted, and a read of the low word latches the high word. -/
def Obligations.WideRegisters : Prop :=
  ∀ (s : State) (slot : Slot) (w : Word) (n : AxisId), slot.nth = 0 → slot.index.toNat ≤ 0x7e → pageQuiet s s.link.page →
    privileged s.part s.link.page = false → s.link.setUp = true →
    let i := slot.index.toNat
    let page := s.link.page
    (s.regAt page i = .pos n false → ∃ u, exec (.wideLowWrite slot w) s = .next u ∧
      LinkIs s u { landedAt s with hold := cellSet 0 (pairKey page i) w s.link.hold }) ∧
    (s.regAt page i = .pos n true → validPos (s.held page (i - 1)) w = true → ∃ u, exec (.wideHighWrite slot w) s = .next u ∧
      LinkIs (s.modAxis n fun a => { a with eng := { a.eng with setPos := some (pairInt (s.held page (i - 1)) w) } }) u
        (landedAt s)) ∧
    (s.regAt page i = .pos n true → validPos (s.held page (i - 1)) w = false → ∃ u, exec (.wideHighWrite slot w) s = .next u ∧
      u.axes = s.axes ∧ u.link.rej = true ∧ u.link.wres = 2) ∧
    (s.regAt page i = .pos n false → ∃ u, exec (.wideLowRead slot .full false) s = .next u ∧
      u.link.wordsOut = [(word64 s.axes[n].eng.ipos).extractLsb' 0 32] ∧
      cellGet 0 (pairKey page i) u.link.shadow =
        cellGet 0 (pairKey page i) (cellSet 0 (pairKey page i) ((word64 s.axes[n].eng.ipos).extractLsb' 32 32) s.link.shadow) ∧
      u.axes = s.axes ∧ u.banks = s.banks ∧ u.link.posted = s.link.posted)

/-- Reads of ordinary pages and of PAGE (R56, R60, R61, R64 to R66, R71, R76, R77, R98): HLSYNC answers the count of
landed writes once none is posted, else not ready; a read cut before its word sends none; a word past the end reads 0
and is an overrun; PAGE is read on every page; a bank page is not ready while its mirror is loaded; an S-framed low
half latches the high half. -/
def Sys2Proof.Machine.LinkReads : Prop :=
  ∀ (s : State), s.powered = true →
    (s.link.page = 0 → s.link.sframe = false → privileged s.part 0 = false → s.link.posted = [] → ∃ u,
      exec (.hlsyncRead .full) s = .next u ∧ u.link.wordsOut = [0#16 ++ s.link.landed] ∧
      (u.link.statusOut.map fun b => b.getLsbD 7) = some true ∧ u.link.wres = 0 ∧ u.axes = s.axes) ∧
    (s.link.page = 0 → s.link.sframe = false → privileged s.part 0 = false → s.link.posted ≠ [] → ∃ u,
      exec (.hlsyncRead .full) s = .next u ∧ u.link.wordsOut = [0] ∧
      (u.link.statusOut.map fun b => b.getLsbD 7) = some false ∧ u.link.wres = s.link.wres ∧ u.link.posted = s.link.posted) ∧
    (s.link.page = 0 → s.link.sframe = false → privileged s.part 0 = false → ∃ u, exec (.hlsyncRead .cutBefore) s = .next u ∧
      u.link.wordsOut = [] ∧ u.link.statusOut = none ∧ u.link.wres = s.link.wres) ∧
    (s.link.page ≠ 0 → exec (.hlsyncRead .full) s = .next s) ∧
    (∀ slot : Slot, s.link.sframeF = false → s.link.ready = true → slot.nth ≠ 0 →
      slot.index = 0x7f ∨ (privileged s.part s.link.page = false ∧ 0x7e < slot.index.toNat + slot.nth) →
      ∃ u, exec (.overrunRead slot .full) s = .next u ∧ LinkIs s u
        { s.link with wordsOut := s.link.wordsOut ++ [0], ovrun := true }) ∧
    (s.link.setUp = true → ∃ u, exec (.wideLowRead ⟨0x7f, 0⟩ .full false) s = .next u ∧
      u.link.wordsOut = [0#24 ++ s.link.page] ∧ u.link.page = s.link.page ∧ u.link.ovrun = s.link.ovrun ∧
      (u.link.statusOut.isSome ↔ privileged s.part s.link.page = false ∧ s.link.sframe = false)) ∧
    (∀ i : BitVec 7, i ≠ 0x7f → s.link.sframe = false → privileged s.part s.link.page = false →
      0x40 ≤ s.link.page.toNat ∧ s.link.page.toNat ≤ 0x45 → ∃ u, exec (.wideLowRead ⟨i, 0⟩ .full true) s = .next u ∧
        u.link.wordsOut = [0] ∧ (u.link.statusOut.map fun b => b.getLsbD 7) = some false ∧ u.link.wres = s.link.wres) ∧
    (∀ slot : Slot, s.link.sframe = true → s.link.setUp = true → privileged s.part s.link.page = false → slot.nth = 0 →
      slot.index.toNat < 0x7e → slot.index.toNat % 2 = 0 → ∃ u, exec (.sframeLowHalfRead slot .full) s = .next u ∧
        u.link.wordsOut = [s.wordAt s.link.page (slot.index.toNat / 2) &&& 0xffff] ∧
        u.link.latch = (s.wordAt s.link.page (slot.index.toNat / 2)).extractLsb' 16 16 ∧ u.link.statusOut = none ∧
        u.axes = s.axes)

/-- Privileged pages (R67 to R71, R206, R388, R551, R552): an unassigned index reads 0 with WINERR; POP removes the
oldest entry once it is sent, PEEK does not, a disabled queue reads 0, a colliding fetch of a bank's queue the busy word,
which the auxiliary queue never sends; the trace window pops a word; a window's status word clears REFD once it is sent. -/
def Sys2Proof.Machine.QueueWindows : Prop :=
  ∀ (s : State) (b : BankId) (sent : Sent), s.powered = true →
    let q := s.banks[b].queue
    let l := s.link.begin 0
    let said (w : Word) : Link := { l with wordsOut := [w] }
    (∀ i : BitVec 7, privileged s.part s.link.page = true → s.link.page = 0xe0 → 0 < i.toNat → i ≠ 0x7f → ∃ u,
      exec (.privilegedIndexRead i) s = .next u ∧ LinkIs s u { said 0 with winerr := true }) ∧
    (queueOf s.part s.link.page = some (.bank b) → s.present b = true → q.en = true → ∃ u,
      exec (.queuePop .full false) s = .next u ∧
        LinkIs (s.modBank b fun k => { k with queue := k.queue.pop }) u (said (q.fifo.headD 0))) ∧
    (queueOf s.part s.link.page = some (.bank b) → s.present b = true → q.en = true → ∃ u,
      exec (.queuePeek false) s = .next u ∧ LinkIs s u (said (q.fifo.headD 0))) ∧
    (queueOf s.part s.link.page = some (.bank b) → q.en = false → ∃ u, exec (.queuePop .full false) s = .next u ∧
      LinkIs s u (said 0)) ∧
    (queueOf s.part s.link.page = some (.bank b) → s.present b = true → q.en = true → ∃ u, exec (.queuePop .full true) s = .next u ∧
      LinkIs s u (said 0x5aa55aa5)) ∧
    (s.link.page = 0xf6 → ∃ u, exec (.queuePop .full true) s = .next u ∧ LinkIs
      (if s.auxq.en then { s with auxq := s.auxq.pop } else s) u (said (if s.auxq.en then s.auxq.fifo.headD 0 else 0))) ∧
    (queueOf s.part s.link.page = some (.bank b) → sent ≠ .full → ∃ u, exec (.queuePop sent false) s = .next u ∧ LinkIs s u l) ∧
    (s.link.page = 0xf7 → s.traceOn = true → ∃ u, exec (.tracePop .full false) s = .next u ∧
      u = { s with link := said (s.perf.fifo.headD 0), perf := { s.perf with fifo := s.perf.fifo.tail, count := u.perf.count } }) ∧
    (s.link.page = 0xf7 → s.traceOn = false → ∀ collide, ∃ u, exec (.tracePop .full collide) s = .next u ∧ LinkIs s u (said 0)) ∧
    (s.link.page = 0xf7 → s.traceOn = true → ∃ u, exec (.tracePop .full true) s = .next u ∧ LinkIs s u (said 0x5aa55aa5)) ∧
    (∀ n w, windowOf s.link.page = some w → s.windowStream w = some n → ∃ u, exec (.windowStatusRead 0 .full) s = .next u ∧
      LinkIs (s.modAxis n fun a => { a with str := { a.str with refd := false } }) u
        (said (s.axes[n].str.status (s.followCfg n).squota))) ∧
    (∀ w, windowOf s.link.page = some w → sent ≠ .full → ∃ u, exec (.windowStatusRead 0 sent) s = .next u ∧ LinkIs s u l) ∧
    (∀ w, windowOf s.link.page = some w → s.windowStream w = none → ∃ u, exec (.windowStatusRead 0 .full) s = .next u ∧
      State.RaisedAt { s with link := { said 0 with winerr := true, winRaised := true }, perf := u.perf } .hostLink 0 u)

/-- Without node logic power no pin of the link drives, and no command of it does anything (R81, R563). -/
def Sys2Proof.Machine.LinkWithoutPower : Prop :=
  ∀ (s : State) (slot : Slot) (word : Word) (cut load : Bool) (nth : Nat) (i : BitVec 7) (m : MbId), s.powered = false →
    ∀ c ∈ [Instr.hostWrite slot word cut, .pageWrite nth word cut, .hlcfgWrite word, .compatWrite word, .hlsyncRead .full,
        .wideLowRead slot .full load, .wideLowWrite slot word, .wideHighWrite slot word, .sframeLowHalfRead slot .full,
        .queuePop .full load, .queuePeek load, .tracePop .full load, .streamWindowWrite nth word, .windowStatusRead nth .full,
        .linkReset, .mailboxRing m word, .batchWrite word, .nerrRelease word, .faultAcknowledge slot word, .frxWrite slot word,
        .overrunRead slot .full, .privilegedIndexRead i], exec c s = .next s

/-- Reads over the host link (R56, R64 to R71, R76, R77, R81, R98, R206, R386, R388, R551, R552). -/
def Obligations.LinkReadsAndWindows : Prop := LinkReads ∧ QueueWindows ∧ LinkWithoutPower

/-- Stream windows and the link reset (R69, R75, R202, R203, R205, R207): the first word of a point is held, the
second completes it; a full stream refuses it with REFD and SREFUSED, a point of no duration is SPOINT; a closed
window discards it; nRST of the link returns lanes, page and framing and is raised. -/
def Obligations.StreamWindowAndLinkReset : Prop :=
  ∀ (s : State) (n : AxisId) (w : WinId) (word w0 : Word) (nth : Nat), s.powered = true →
    let q := s.axes[n].str
    let here : Prop := windowOf s.link.page = some w ∧ s.windowStream w = some n
    let p := pointOf w0 word
    let with_ (str : Stream) : State := s.modAxis n fun a => { a with str := str }
    let l := s.link.begin nth
    (here → q.half = none → ∃ u, exec (.streamWindowWrite nth word) s = .next u ∧
      LinkIs (with_ { q with half := some word }) u l) ∧
    (here → q.half = some w0 → q.fifo.length < (s.followCfg n).squota → p.dur ≠ 0 → ∃ u,
      exec (.streamWindowWrite nth word) s = .next u ∧ LinkIs (with_ { q with half := none, fifo := q.fifo ++ [p] }) u l) ∧
    (here → q.half = some w0 → (s.followCfg n).squota ≤ q.fifo.length → ∃ u, exec (.streamWindowWrite nth word) s = .next u ∧
      u.axes[n].str = { q with half := none, refd := true } ∧ u.statusBit (.stream n) 2 = true) ∧
    (here → q.half = some w0 → q.fifo.length < (s.followCfg n).squota → p.dur = 0 → ∃ u,
      exec (.streamWindowWrite nth word) s = .next u ∧
      u.axes[n].str = { q with half := none } ∧ u.statusBit (.stream n) 5 = true) ∧
    (windowOf s.link.page = some w → s.windowStream w = none → ∃ u, exec (.streamWindowWrite 0 word) s = .next u ∧
      State.RaisedAt { s with link := { s.link.begin 0 with winerr := true, winRaised := true }, perf := u.perf } .hostLink 0 u) ∧
    (∃ u, exec .linkReset s = .next u ∧ State.RaisedAt { s with link := { s.link with
      dlanes := 0, clanes := 0, dlanesF := 0, clanesF := 0, page := 0, sframe := s.link.cmptpin, sframeF := s.link.cmptpin } }
        .hostLink 1 u)

/-! ## The tick, timed events of an axis, Proofs -/

/-- TICK_EDGE (R12, R28, R30, R93, R164, R192): without power or a reference nothing happens. Else the tick number
advances, staged TICK values apply, and every present bank whose link leads here and has supply (R26) is sent the packet of
the new tick with the positions and velocities its axes have reached. -/
def Obligations.TickEdges : Prop :=
  ∀ (s : State) (pins : BitVec 24),
    ((s.powered = false ∨ s.refOk = false) → exec (.tickEdge pins) s = .next s) ∧
    (s.powered = true → s.refOk = true → s.noReset = true → s.pair.handing = none → ∃ u, exec (.tickEdge pins) s = .next u ∧
      u.tick = s.tick + 1 ∧ u.elapsed = s.units ∧ u.units = (if s.pair.tbanks = 0 then 1 else 2) ∧ u.link = s.link ∧
      u.enPins = 0#24 ++ pins ∧ u.part = s.part ∧ u.pending = s.pending ∧
      (∀ n : AxisId, s.axisPresent n = false → u.axes[n].eng.pos = s.axes[n].eng.pos) ∧
      (s.nodeP.wf = true → ∀ key, keyAcc key = .tick → paramGet u.nodeP.applied key = paramGet s.nodeP.staged key) ∧
      ∀ b, s.sendsTo b = true → ∃ d, u.banks[b].dpkt = some d ∧ d.tick = BitVec.ofNat 16 (s.tick + 1) ∧
        ∀ p : Pos, d.sp[p].angle = angleOf u.axes[axisAt b p].eng.pos ∧
          d.sp[p].vff = BitVec.ofInt 32 u.axes[axisAt b p].eng.velQ ∧
          (d.sp[p].cur.getLsbD 0 = true ↔ u.axes[axisAt b p].eng.st ≠ .off))

/-- The angle of a position on the link: its top twelve bits are the microstep within the electrical cycle, one cycle
is 2^32, and without a retard the current table is read at bits [31:16] (R30). -/
def Obligations.AngleFormat : Prop :=
  ∀ (pos k : Int) (a : Word) (v : Int) (o : ObsBank),
    (angleOf pos).extractLsb' 20 12 = BitVec.ofInt 12 (pos.fdiv 4294967296) ∧
    (angleOf pos).extractLsb' 0 20 = BitVec.ofInt 20 (pos.fdiv 4096) ∧
    angleOf (pos + 4096 * 4294967296 * k) = angleOf pos ∧
    (o.retard = 0 → o.tableAngle a v = a.extractLsb' 16 16)

/-- Timed events of an axis (R235, R245, R257, R290, R292, R293, R358): hold delay, I²t account, retries, blind
running, the backoff of homing. -/
def Sys2Proof.Machine.AxisTimers : Prop :=
  ∀ (s : State) (n : AxisId),
    let a := s.axes[n]
    let held : Prop := a.eng.st = .standby ∧ 20 * (s.curCfg n).holddly ≤ a.cur.holdT + s.units
    let lim := fieldN (s.pA n.val 0x3500 0) 16 16
    (held → exec (.holdDelayExpire n) s = .next (s.modAxis n fun x => { x with cur := { x.cur with holdDone := true } })) ∧
    (¬ held → exec (.holdDelayExpire n) s = .next s) ∧
    (a.cur.i2tDue = true → ∃ u, exec (.i2tEmpty n) s = .next u ∧ State.RaisedAt (s.modAxis n fun x => { x with cur := { x.cur with
      i2tDue := false, derating := true, fallFrom := max 2000 x.cur.imag, fallT := 0 } }) (.axis n) 15 u) ∧
    (a.cur.i2tDue = false → exec (.i2tEmpty n) s = .next s) ∧
    (a.cur.lock = true → 1800000000000 ≤ a.cur.acct → exec (.i2tRefilled n) s = .next
      (s.modAxis n fun x => { x with cur := { x.cur with lock := false } })) ∧
    (200000 ≤ a.legn.energT → s.linked (bankOf n) = true → exec (.triesReset n) s = .next
      ((s.modAxis n fun x => { x with legn := { x.legn with energT := 0 } }).queueOp (bankOf n) (.tries (posOf n)) 1 none)) ∧
    (a.legn.energT < 200000 → exec (.triesReset n) s = .next s) ∧
    (lim ≠ 0 → 20 * lim < a.obn.blindRun → a.obn.blindUp = false → ∃ u, exec (.blindmv n) s = .next u ∧
      State.RaisedAt (s.modAxis n fun x => { x with obn := { x.obn with blindUp := true } }) (.axis n) 20 u) ∧
    ((lim = 0 ∨ a.obn.blindUp = true) → exec (.blindmv n) s = .next s)

/-- HOMING_BACKOFF (R292, R293): once the latched angles have been read and the contact edge is a tick past, the next tick edge
is the BACKOFF edge; there the position moves by whole electrical cycles, HOMEPOS is formed from the latched angle and load
angle, and the axis backs off. HARMONIC_COPY_REFRESH (R232): every 1,024 ticks the coefficients of every axis of a bank in
reach become due in its scan. -/
def Sys2Proof.Machine.HomingAndHarmonics : Prop :=
  ∀ (s : State),
    (∀ n : AxisId, s.axes[n].obn.hread.isSome = true → s.axes[n].obn.hstate = .contact → 1 ≤ s.axes[n].obn.hwait →
      s.axes[n].eng.st = .frozen → exec (.homingBackoff n) s = .next
        (s.modAxis n fun a => { a with obn := { a.obn with hgo := true } })) ∧
    (∀ (n : AxisId) (ang lam : Word), s.axes[n].obn.hread = some (ang, lam) → s.axes[n].obn.hgo = true → s.axes[n].eng.st = .frozen →
      let home := homePos (unwrapAngle ang s.axes[n].obn.hanchor) lam.toInt
      let u := s.contactStep n false
      u = { s with axes := u.axes } ∧ (∀ k : AxisId, k ≠ n → u.axes[k] = s.axes[k]) ∧
        u.axes[n] = { s.axes[n] with eng := u.axes[n].eng, obn := { s.axes[n].obn with
          hstate := .backoff, homepos := home, hread := none, hgo := false } } ∧
        u.axes[n].eng.pos = wrapPos (s.axes[n].eng.pos +
          4096 * cycleCorrection home s.axes[n].obn.hfrozen s.axes[n].obn.hup * 4294967296) ∧
        angleOf u.axes[n].eng.pos = angleOf s.axes[n].eng.pos) ∧
    (∀ n : AxisId, (s.axes[n].obn.hread = none ∨ s.axes[n].obn.hstate ≠ .contact ∨ s.axes[n].eng.st ≠ .frozen) →
      exec (.homingBackoff n) s = .next s) ∧
    (s.tick % 1024 = 0 → ∃ u, exec .harmonicCopyRefresh s = .next u ∧ u = { s with banks := u.banks } ∧ ∀ b : BankId,
      u.banks[b] = if s.present b = true ∧ s.linked b = true then { s.banks[b] with harmDue := 0xf } else s.banks[b]) ∧
    (s.tick % 1024 ≠ 0 → exec .harmonicCopyRefresh s = .next s)

/-- The timed events of an axis and of homing (R232, R235, R245, R257, R290, R292, R293, R358). -/
def Obligations.AxisEvents : Prop := AxisTimers ∧ HomingAndHarmonics

/-- PROOF_SCAN (R102, R104, R105) at a tick whose number is a multiple of 20, with no COMMIT waiting: the node's
Proofs take their computed values; one that is sealed or loaded and differs is counted, and raises PROOF where it did
not differ before, and again once the class of that raise has been acknowledged. -/
def Obligations.ProofScans : Prop :=
  ∀ (s : State),
    (∀ l, s.tick % 20 ≠ 0 → exec (.proofScan l) s = .next s) ∧
    (s.tick % 20 = 0 → s.commits = [] → s.noReset = true → ∃ u, exec (.proofScan []) s = .next u ∧ u.nodeP = s.nodeP ∧
      u.proofs.bank = s.proofs.bank ∧ u.proofs.axisB = s.proofs.axisB ∧
      ∀ p ∈ ProofId.node :: s.presentAxes.map ProofId.axisN,
        let old := s.proofs.get p
        let bad := decide (old.state ≠ .open_ ∧ s.proofValue p ≠ old.ref)
        u.proofs.get p = { old with
          computed := s.proofValue p, mis := bad,
          miscnt := (if bad = true ∧ old.miscnt ≠ 0xff then old.miscnt + 1 else old.miscnt),
          told := (u.proofs.get p).told } ∧
        (bad = true → (old.mis = false ∨ old.told = none) → u.statusBit p.owner.1 p.owner.2 = true))

/-! ## The bank link -/

/-- DOWNSTREAM_PACKET_RECEIVE (R35, R95, R326): a packet that a bank hears is held for the next tick edge; outside
operation hold its operations execute in slot order; in operation hold none does; a packet whose check fails is
discarded, counted and told, and begins operation hold; a safe-level request always acts. -/
def Sys2Proof.Machine.DownstreamPackets : Prop :=
  ∀ (s : State) (b : BankId) (d : DPacket),
    let k := s.banks[b]
    let quiet : State := s.modBank b fun x => { x with dpkt := none }
    (k.dpkt = none → ∀ ok, exec (.downstreamPacketReceive b ok) s = .next s) ∧
    (k.dpkt = some d → (k.clocked = false ∨ k.lock = false) → ∀ ok, exec (.downstreamPacketReceive b ok) s = .next quiet) ∧
    (k.dpkt = some d → k.clocked = true → k.lock = true → k.hold = true → d.resume = false → d.safe = false →
      exec (.downstreamPacketReceive b true) s = .next (s.modBank b fun x =>
        { x with dpkt := none, badDn := 0, recv := some d, tickNo := d.tick })) ∧
    (k.dpkt = some d → k.clocked = true → k.lock = true → (k.hold = false ∨ d.resume = true) → d.safe = false →
      d.batch = false → d.svc = 0 → exec (.downstreamPacketReceive b true) s = .next
        ((s.modBank b fun x => { x with dpkt := none, badDn := 0, recv := some d, tickNo := d.tick, hold := false,
                                        ack := d.tick.extractLsb' 0 8 }).each d.ops fun e t => t.bankOp b e)) ∧
    (k.dpkt = some d → k.clocked = true → k.lock = true → d.safe = true → d.ops = [] → d.batch = false → ∃ u,
      exec (.downstreamPacketReceive b true) s = .next u ∧ u.banks[b].safe.forced = true ∧
        u.banks[b].safe.lat.getLsbD 2 = true ∧ ((k.st = .run ∨ k.st = .service) → u.banks[b].st = .safe) ∧
        (∀ c : BankId, c ≠ b → u.banks[c] = s.banks[c]) ∧ u.nodeP = s.nodeP ∧ u.bankP = s.bankP) ∧
    (k.dpkt = some d → k.clocked = true → k.lock = true → exec (.downstreamPacketReceive b false) s = .next
      (s.modBank b fun x => { x with
        dpkt := none, crcdn := if x.crcdn = 0xff then 0xff else x.crcdn + 1, badDn := x.badDn + 1, hold := true,
        flt := x.flt ||| (if x.badDn = 1 then 0x3000 else 0x1000),
        events := x.events ++ .fault (.bank b) 12 :: (if x.badDn = 1 then [.fault (.bank b) 13] else []) }))

/-- A register operation that writes one word executes: the bank stages a PERIOD value, it applies every other, and no
other word of the bank changes (R92, R94). -/
def Sys2Proof.Machine.BankWrites : Prop :=
  ∀ (s : State) (b : BankId) (e : OpEntry) (key : Nat) (v : Word), e.op = .write key [v] → s.bankP.wf = true →
    (s.bankOp b e).nodeP = s.nodeP ∧
    (∀ j, paramGet (s.bankOp b e).bankP.staged j = if j = key then v else paramGet s.bankP.staged j) ∧
    ∀ j, paramGet (s.bankOp b e).bankP.applied j =
      if j = key ∧ keyAcc key ≠ .period then v else paramGet s.bankP.applied j

/-- Downstream packets and the writes they carry (R35, R92, R94, R95, R326). -/
def Obligations.DownstreamLink : Prop := DownstreamPackets ∧ BankWrites

/-- UPSTREAM_PACKET_CHECK (R32 to R37, R90, R116, R353): a good packet sets the state, the mirror and the thermal summary
that the node holds of the bank, sets the fault bits that the bank holds, raises what the bank tells, takes its axes OFF,
and completes a command whose operation it acknowledges, the packet bringing nothing else to raise; one whose check fails
is counted and raised, and leaves state and mirror. -/
def Obligations.UpstreamLink : Prop :=
  ∀ (s : State) (b : BankId) (q : UPacket),
    (s.banks[b].upkt = none → ∀ ok, exec (.upstreamPacketCheck b ok) s = .next s) ∧
    (s.banks[b].upkt = some q → s.present b = true → s.links = true → s.noReset = true → ∃ u,
      exec (.upstreamPacketCheck b true) s = .next u ∧ u.banks[b].view = q.regs.st ∧ u.banks[b].mir = q.regs ∧
        u.banks[b].upkt = none ∧ u.banks[b].seen = true ∧ u.banks[b].noUp = 0 ∧ u.banks[b].badUp = 0 ∧
        u.kiln.ksum[b] = q.ksum ∧ u.nodeP = s.nodeP ∧ u.link = s.link ∧
        (∀ j, q.regs.flt.getLsbD j = true → u.statusBit (.bank b) j = true) ∧
        (∀ p, BankEvent.axisOff p ∈ q.events → u.axes[axisAt b p].eng.offReq = true) ∧
        ∀ i bit, BankEvent.fault i bit ∈ q.events → bit < 32 → (classOf s.part i bit).isSome = true → u.statusBit i bit = true) ∧
    (∀ e m t, s.banks[b].upkt = some q → s.present b = true → s.links = true → s.noReset = true → s.debugHalted = false →
      q.events = [] → q.entries = [] → q.broken = s.kiln.broken[b] → q.subx = s.kiln.subx[b] →
      (∀ p : Pos, q.obs[p] = (let o := s.axes[axisAt b p].obn; (o.la, o.ra, o.tqw))) →
      s.banks[b].view = .run → q.regs.st = .run → s.banks[b].ops = [e] → e.op.returns = false →
      e.mb = some m → e.slots = 0 → e.sentAt = some t → t ≤ tickBack s.tick 256 q.ack.toNat →
      s.mbx[m].phase = .waiting (.bank b []) → s.banks[b].sentSoft = none → ∃ u,
        exec (.upstreamPacketCheck b true) s = .next u ∧ u.mbx[m] = s.mbx[m].finish 2 [] ∧ u.banks[b].ops = []) ∧
    (s.banks[b].upkt = some q → s.present b = true → s.links = true → ∃ u, exec (.upstreamPacketCheck b false) s = .next u ∧
      u.banks[b].crcup = (if s.banks[b].crcup = 0xff then 0xff else s.banks[b].crcup + 1) ∧ u.banks[b].miss = true ∧
      u.banks[b].badUp = s.banks[b].badUp + 1 ∧ u.banks[b].view = s.banks[b].view ∧ u.banks[b].mir = s.banks[b].mir ∧
      u.statusBit (.bank b) 12 = true ∧ (s.banks[b].badUp = 1 → u.statusBit (.bank b) 13 = true))

/-- BANK_TICK_EDGE (R29, R31, R35, R37, R533): a bank without clock stands still; any other begins to send what it
has to tell, in holdover too (log 68); the tick that begins runs from the angles reached to those of the packet received, or on at the last
velocities in operation hold; an orphan slows down at QSDEC. -/
def Obligations.BankTicks : Prop :=
  ∀ (s : State) (b : BankId),
    let k := s.banks[b]
    (k.clocked = false → exec (.bankTickEdge b) s = .next s) ∧
    (k.clocked = true → ∃ u, exec (.bankTickEdge b) s = .next u ∧ (∀ c : BankId, c ≠ b → u.banks[c] = s.banks[c]) ∧
      u.nodeP = s.nodeP ∧ u.bankP = s.bankP ∧ u.mbx = s.mbx ∧ u.fn = s.fn ∧ (∀ n : AxisId, u.axes[n].eng = s.axes[n].eng) ∧
      u.banks[b].tickNo = k.tickNo + 1 ∧ u.banks[b].a0 = k.a1 ∧ u.banks[b].recv = none ∧ u.banks[b].returns = [] ∧
      u.banks[b].entries = [] ∧ u.banks[b].st = k.st ∧
      (∃ q, u.banks[b].upkt = some q ∧ q.tick = k.tickNo ∧ q.ack = k.ack ∧ q.regs = s.bankRegs b ∧
        (∀ e ∈ k.events, e ∈ q.events) ∧ q.returns = k.returns ∧ q.entries = k.entries) ∧
      (∀ d, k.st ≠ .orphan → k.recv = some d → u.banks[b].a1 = d.sp.map (fun x => x.angle) ∧ u.banks[b].sp = d.sp ∧
        u.banks[b].noDn = 0 ∧ u.banks[b].hold = k.hold) ∧
      (k.st ≠ .orphan → k.recv = none → u.banks[b].sp = k.sp ∧ u.banks[b].noDn = k.noDn + 1 ∧ u.banks[b].hold = true ∧
        ∀ p : Pos, u.banks[b].a1[p] = k.a1[p] + BitVec.ofInt 32 (angleStep k.sp[p].vff.toInt (24000 * s.units))) ∧
      (k.st = .orphan → ∀ p : Pos, (u.banks[b].sp[p].vff.toInt.natAbs ≤ k.sp[p].vff.toInt.natAbs) ∧
        ((k.sp[p].cur.getLsbD 0 = false ∨ s.axes[axisAt b p].legs.latch = true) → u.banks[b].sp[p].vff = 0)))

/-- Loss and return of a bank's link and clock (R36, R38, R42, R118, R533): a bank that hears no good packet for three ticks
becomes an ORPHAN; the node that hears none raises LINKLOST once and refuses the commands that wait, the state shown
staying as the bank last reported it (log 68); a lost recovered clock is held over; an orphan at rest enters SAFE in its
level. -/
def Sys2Proof.Machine.LinkLosses : Prop :=
  ∀ (s : State) (b : BankId),
    let k := s.banks[b]
    let lost : Prop := (k.st = .run ∨ k.st = .service) ∧ (3 ≤ k.noDn ∨ k.holdover = true)
    let still : Prop := ∀ p : Pos, k.sp[p].vff = 0 ∧ s.axes[axisAt b p].legs.rel = .none
    (lost → exec (.bankLinkLost b) s = .next (s.modBank b fun x =>
      { x with st := .orphan, hold := true, svc := 0, releaseDue := false, cal := false })) ∧
    (¬ lost → exec (.bankLinkLost b) s = .next s) ∧
    (s.linked b = true → 3 ≤ k.noUp → s.present b = true → s.noReset = true → s.debugHalted = false → ∃ u,
      exec (.nodeLinkLost b) s = .next u ∧
      u.banks[b].view = k.view ∧ u.banks[b].lost = true ∧ u.banks[b].reinit = true ∧ u.banks[b].gone = true ∧
      u.banks[b].ops = [] ∧ (k.gone = false → u.statusBit (.bank b) 14 = true) ∧ u.nodeP = s.nodeP ∧
      ∀ m ∈ s.waiters (Wait.onBank b), u.mbx[m].phase = .idle ∧ u.mbx[m].state = 3) ∧
    ((s.linked b = false ∨ k.noUp < 3) → exec (.nodeLinkLost b) s = .next s) ∧
    (k.powered = true → exec (.recoveredClockLoss b) s = .next (s.modBank b fun x => { x with holdover := true, lock := false })) ∧
    (k.powered = true → s.links = true → s.present b = true → exec (.bankRelock b) s = .next
      (s.modBank b fun x => { x with holdover := false, lock := true })) ∧
    (k.st = .orphan → still → ∃ u, exec (.orphanDecelEnd b) s = .next u ∧ u.banks[b] = { k with
      st := .safe, safe := { k.safe with forced := true, coast := k.safe.coast && decide (k.safe.lat ≠ 0) } } ∧
      (∀ c : BankId, c ≠ b → u.banks[c] = s.banks[c]) ∧ ∀ n : AxisId, u.axes[n].eng = s.axes[n].eng) ∧
    ((k.st ≠ .orphan ∨ ¬ still) → exec (.orphanDecelEnd b) s = .next s)

/-- Supply, link-up, reinitialisation and SERVICE of a bank (R26, R36, R38, R319, R329, R363, R530, R598): with its
supply the bank is LINKING, with the safe causes that stand latched; with its configuration it is in RUN and holds the
node's values and spare map; a bank back in SAFE without a latch bit, its axes OFF, is taken to RUN; without supply it keeps
nothing; SERVICE is entered once every axis is
ready. -/
def Sys2Proof.Machine.BankStates : Prop :=
  ∀ (s : State) (b : BankId),
    let k := s.banks[b]
    let running (u : State) : Prop := u.banks[b].st = .run ∧ u.banks[b].view = .run ∧ u.banks[b].lock = true ∧
      u.banks[b].hold = false ∧ u.banks[b].reinit = false ∧ u.banks[b].safe.forced = false ∧
      (s.nodeP.wf = true → s.bankP.wf = true → ∀ key, keyOfBank b key = true → copiedToBank (keyIdent key) = true →
        key ≠ keyOf b.val 0x2001 0 → paramGet u.bankP.applied key = paramGet s.nodeP.applied key)
    let ready (off : Bool) : Prop := ∀ p : Pos, s.axes[axisAt b p].eng.serviceReady off = true
    (k.st = .unpowered → s.present b = true → s.attached b = true → ∃ u,
      exec (.bankSupplyUp b) s = .next u ∧ u.banks[b].st = .linking ∧ u.banks[b].view = .linking ∧
        u.banks[b].safe.lat = s.safeCauses b &&& 0xf ∧ (u.banks[b].safe.forced = true ↔ s.safeCauses b &&& 0xf ≠ 0) ∧
        u.banks[b].spares = k.spares ∧ u.axes = s.axes) ∧
    (k.st ≠ .unpowered → exec (.bankSupplyUp b) s = .next s) ∧
    (k.st = .linking → s.links = true → s.present b = true → s.safeCauses b = 0 → k.safe.lat = 0 → ∃ u,
      exec (.bankLinkUp b) s = .next u ∧ running u ∧ u.banks[b].spares = #v[spareOf k.mir.spare false, spareOf k.mir.spare true]) ∧
    (k.st ≠ .linking → exec (.bankLinkUp b) s = .next s) ∧
    (k.view = .safe → k.reinit = true → k.mir.lat = 0 → k.st = .safe → k.safe.lat = 0 → k.lock = true → s.links = true →
      s.present b = true → s.safeCauses b = 0 → (∀ p : Pos, s.axes[axisAt b p].eng.st = .off) → ∃ u,
      exec (.bankReinitialise b) s = .next u ∧ running u) ∧
    ((k.reinit = false ∨ k.safe.lat ≠ 0 ∨ ∃ p : Pos, s.axes[axisAt b p].eng.st ≠ .off) → exec (.bankReinitialise b) s = .next s) ∧
    (k.powered = true → s.noReset = true → ∃ u, exec (.bankSupplyDown b) s = .next u ∧ u.banks[b].st = .unpowered ∧
      u.banks[b].view = .unpowered ∧ (∀ p : Pos, u.axes[axisAt b p].legs = {} ∧ u.axes[axisAt b p].obs = {} ∧
        u.axes[axisAt b p].eng = s.axes[axisAt b p].eng) ∧ ∀ c : BankId, c ≠ b → u.banks[c] = s.banks[c]) ∧
    (k.powered = false → exec (.bankSupplyDown b) s = .next s) ∧
    (k.st = .run → k.svc ≠ 0 → ready (decide (k.svc = 2)) → exec (.serviceEntry b) s = .next
      (s.modBank b fun x => { x with st := .service, svc := 0 })) ∧
    ((k.st ≠ .run ∨ k.svc = 0) → exec (.serviceEntry b) s = .next s)

/-- The states of a bank and its link (R26, R36, R38, R42, R118, R319, R329, R363, R530, R533, R598). -/
def Obligations.BankStateEvents : Prop := LinkLosses ∧ BankStates

/-- The safe-state channel (R324, R326, R330): nSTOP forces every present bank with supply and nFLTb its own, and
STOPIN and FLTIN are raised; a lost PWM clock brakes the bank, which tells CLKLOSS; a released input leaves the latch, and
no bank that met it without supply owes its fault any more. -/
def Obligations.SafeInputs : Prop :=
  ∀ (s : State) (b : BankId),
    let forced (u : State) (c : BankId) (bit : Nat) : Prop := u.banks[c].safe.lat.getLsbD bit = true ∧
      u.banks[c].safe.forced = true ∧ ((s.banks[c].st = .run ∨ s.banks[c].st = .service) → u.banks[c].st = .safe) ∧
      (s.banks[c].st = .orphan → u.banks[c].st = .orphan)
    (s.nstopLow = false → s.powered = true → ∃ u, exec (.safeInputAssert true b) s = .next u ∧ u.nstopLow = true ∧
      u.nodeP = s.nodeP ∧ u.bankP = s.bankP ∧ ∀ c : BankId, s.present c = true → s.banks[c].powered = true →
        forced u c 0 ∧ u.statusBit (.bank c) 4 = true) ∧
    (s.nstopLow = true → exec (.safeInputAssert true b) s = .next s) ∧
    (s.powered = false → exec (.safeInputAssert true b) s = .next { s with nstopLow := true }) ∧
    (b.val < 6 → s.nfltLow.getLsbD b.val = false → s.powered = true → s.present b = true → s.banks[b].powered = true → ∃ u,
      exec (.safeInputAssert false b) s = .next u ∧ u.nfltLow.getLsbD b.val = true ∧ forced u b 1 ∧
        u.statusBit (.bank b) 3 = true ∧ u.nodeP = s.nodeP ∧ u.bankP = s.bankP) ∧
    (s.nfltLow.getLsbD b.val = true → exec (.safeInputAssert false b) s = .next s) ∧
    (∃ u, exec (.safeInputRelease true b) s = .next u ∧ u = { s with nstopLow := false, banks := u.banks } ∧
      ∀ c : BankId, u.banks[c] = { s.banks[c] with missed := s.banks[c].missed &&& ~~~1#5 }) ∧
    exec (.safeInputRelease false b) s = .next ({ s with nfltLow := s.nfltLow &&& ~~~(1#12 <<< b.val) }.modBank b fun x =>
      { x with missed := x.missed &&& ~~~2#5 }) ∧
    (s.banks[b].powered = true → s.banks[b].safe.clkGone = false → ∃ u, exec (.pwmClockLoss b) s = .next u ∧ forced u b 4 ∧
      u.banks[b].safe.coast = false ∧ u.banks[b].events = s.banks[b].events ++ [.fault (.bank b) 5] ∧
      (∀ c : BankId, c ≠ b → u.banks[c] = s.banks[c]) ∧ u.nodeP = s.nodeP) ∧
    (s.banks[b].powered = false → exec (.pwmClockLoss b) s = .next s) ∧
    exec (.pwmClockReturn b) s = .next (s.modBank b fun x => { x with safe := { x.safe with clkGone := false } })

/-! ## Legs, phases and spare legs -/

/-- What a fault in a leg does (R345 to R351, R353): it is recorded under its leg, a leg that does not block as
shorted. Without a release or a latch, step 1 starts: the axis freewheels through the other side, is latched, and the
bank tells the fault and the axis to take OFF; a latched axis only records. A fault in the freewheeling side ends step 1,
in a release of bank scope for every axis of it, unless its leg is held off already. -/
def Sys2Proof.Machine.LegFaultDoes (c : Instr) (s : State) (n : AxisId) (f : LegFault) (leg : Pos) (blocks : Bool) : Prop :=
  let b := bankOf n
  let l := s.axes[n].legs
  (s.banks[b].powered = false → exec c s = .next s) ∧
  (s.banks[b].powered = true → ∃ u, exec c s = .next u ∧ u = { s with axes := u.axes, banks := u.banks } ∧
    (∀ k : AxisId, k ≠ n → u.axes[k] = s.axes[k] ∨
      (bankOf k = b ∧ l.bankRel = true ∧ l.rel ≠ .none ∧ s.axes[k].legs.bankRel = true ∧ s.axes[k].legs.rel ≠ .none)) ∧
    (∀ k : BankId, k ≠ b → u.banks[k] = s.banks[k]) ∧
    u.axes[n].eng = s.axes[n].eng ∧
    (l.rel = .none → l.latch = false →
      u.axes[n].legs.rel = (if f.highSide then .lows else .highs) ∧ u.axes[n].legs.latch = true ∧
      u.axes[n].legs.step2 = false ∧ u.axes[n].legs.energised = false ∧ u.axes[n].legs.flt[leg].getLsbD f.bit = true ∧
      (blocks = false → f ≠ .xon → u.axes[n].legs.flt[leg].getLsbD 7 = true) ∧
      u.banks[b] = { s.banks[b] with
        events := s.banks[b].events ++ [.fault (.axis n) f.axisBit, .axisOff (posOf n)] }) ∧
    (l.rel = .none → l.latch = true → u.banks[b] = s.banks[b] ∧ u.axes[n].legs.rel = .none ∧
      u.axes[n].legs.flt[leg].getLsbD f.bit = true ∧ u.axes[n].legs.step2 = l.step2) ∧
    (l.rel = .lows → l.enRel = false → f.highSide = false → l.held.getLsbD leg.val = false →
      u.axes[n].legs.rel = .none ∧ u.axes[n].legs.step2 = true) ∧
    (l.rel = .highs → f.highSide = true → l.held.getLsbD leg.val = false →
      u.axes[n].legs.rel = .none ∧ u.axes[n].legs.step2 = true) ∧
    (l.rel ≠ .none → l.enRel = false → l.held.getLsbD leg.val = true → u.axes[n].legs.rel = l.rel ∧
      u.axes[n].legs.flt[leg].getLsbD f.bit = true ∧ u.banks[b] = s.banks[b]) ∧
    (l.bankRel = true → l.held.getLsbD leg.val = false → (l.rel = .highs ∧ f.highSide = true ∨ l.rel = .lows ∧ l.enRel = false ∧ f.highSide = false) →
      ∀ k : AxisId, bankOf k = b → s.axes[k].legs.bankRel = true → s.axes[k].legs.rel ≠ .none →
        u.axes[k].legs.rel = .none ∧ u.axes[k].legs.step2 = true))

/-- The protections of a leg, and the end of a release (R342 to R351, R357): each kind of fault under its side, desaturation
only of a switch that is commanded on, overcurrent under the switch last commanded on; a gate supply that recovers; the
timeout of step 1; the end of a retry wait, RETRYWAIT ms in RUN. -/
def Obligations.LegProtection : Prop :=
  ∀ (s : State) (n : AxisId) (leg : Pos) (at_ : LegAt),
    let l := s.axes[n].legs
    (∀ blocks, (s.commandedOn n at_ true = true → LegFaultDoes (.desaturation n at_ true blocks) s n .dsh at_.leg blocks) ∧
      (s.commandedOn n at_ false = true → LegFaultDoes (.desaturation n at_ false blocks) s n .dsl at_.leg blocks) ∧
      (∀ high, s.commandedOn n at_ high = false → exec (.desaturation n at_ high blocks) s = .next s) ∧
      LegFaultDoes (.overcurrent n at_ blocks) s n (if l.lastHigh at_ then .och else .ocl) at_.leg blocks ∧
      LegFaultDoes (.gateSupplyUv n leg true blocks) s n .uvh leg blocks ∧
      LegFaultDoes (.gateSupplyUv n leg false blocks) s n .uvl leg blocks) ∧
    LegFaultDoes (.interlock n leg) s n .xon leg true ∧
    (∀ (j : LegId) (high : Bool) (b : BankId), ∃ u, exec (.gateSupplyRecover b (some (j, high))) s = .next u ∧
      u = { s with axes := u.axes } ∧
      u.axes[axisAt b ⟨j.val / 4, by omega⟩].legs.uv[j.val % 4].getLsbD (if high then 0 else 1) = false) ∧
    (∀ b : BankId, exec (.gateSupplyRecover b none) s = .next (s.modBank b fun x => { x with railLo := false })) ∧
    (l.rel = .none → exec (.releaseTimeout n) s = .next s) ∧
    (l.rel ≠ .none → ∃ u, exec (.releaseTimeout n) s = .next u ∧ u = { s with axes := u.axes, banks := u.banks } ∧
      u.axes[n].legs.rel = .none ∧ u.axes[n].legs.step2 = true ∧ u.axes[n].legs.latch = l.latch ∧
      (s.part.retries = true → l.latch = true → l.tries.toNat < fieldN (s.bA (bankOf n).val 0x2101 0) 0 3 →
        u.axes[n].legs.rpend = true ∧ u.axes[n].legs.waiting = true) ∧
      (s.part.retries = true → l.latch = true → fieldN (s.bA (bankOf n).val 0x2101 0) 0 3 ≤ l.tries.toNat →
        u.banks[bankOf n].events = s.banks[bankOf n].events ++ [.fault (.axis n) 26])) ∧
    (l.rpend = true → l.waiting = true → s.banks[bankOf n].st = .run →
      20 * fieldN (s.bA (bankOf n).val 0x2101 0) 8 8 ≤ l.waitT + s.units → ∃ u, exec (.retryWaitExpire n) s = .next u ∧
      u.axes[n].legs = { l with waiting := false } ∧
      u.banks[bankOf n].events = s.banks[bankOf n].events ++ [.retryDue (posOf n)] ∧ u.mbx = s.mbx) ∧
    ((s.banks[bankOf n].st ≠ .run ∨ l.waitT + s.units < 20 * fieldN (s.bA (bankOf n).val 0x2101 0) 8 8) →
      exec (.retryWaitExpire n) s = .next s)

/-- Faults of bank scope (R343, R345, R347, R350): bus overvoltage releases every axis that is not released or latched
through its low sides, a failing driver rail through its high sides; the bank tells its fault once and every axis to
take OFF. -/
def Sys2Proof.Machine.BankScopeFaults : Prop :=
  ∀ (s : State) (b : BankId),
    let free (p : Pos) : Prop := s.axes[axisAt b p].legs.rel = .none ∧ s.axes[axisAt b p].legs.latch = false
    let done (u : State) (rel : Release) (bit : Nat) : Prop := u.nodeP = s.nodeP ∧ u.mbx = s.mbx ∧
      (∀ c : BankId, c ≠ b → u.banks[c] = s.banks[c]) ∧
      ∀ p : Pos, (free p → u.axes[axisAt b p].legs.rel = rel ∧ u.axes[axisAt b p].legs.latch = true ∧
          u.axes[axisAt b p].legs.bankRel = true ∧ BankEvent.axisOff p ∈ u.banks[b].events ∧
          BankEvent.fault (.bank b) bit ∈ u.banks[b].events) ∧
        (s.axes[axisAt b p].legs.rel = .none → s.axes[axisAt b p].legs.latch = true → u.axes[axisAt b p] = s.axes[axisAt b p])
    (s.banks[b].powered = true → ∃ u, exec (.busOvervoltage b) s = .next u ∧ done u .lows 10 ∧ u.banks[b].busHi = true) ∧
    (s.banks[b].powered = true → ∃ u, exec (.driverRailUv b) s = .next u ∧ done u .highs 9 ∧ u.banks[b].railLo = true) ∧
    (s.banks[b].powered = false → exec (.busOvervoltage b) s = .next s ∧ exec (.driverRailUv b) s = .next s)

/-- Faults of phases (R99, R252, R258, R347): saturation, tracking error and an open phase are told once, the open
phase with a release of its axis; a phase word that fails parity is told and releases its axis. -/
def Sys2Proof.Machine.PhaseFaults : Prop :=
  ∀ (s : State) (n : AxisId) (phB : Bool),
    let l := s.axes[n].loop phB
    let b := bankOf n
    let told (u : State) (bit : Nat) (more : List BankEvent) : Prop := u = { s with axes := u.axes, banks := u.banks } ∧
      (u.axes[n].loop phB).flt.getLsbD bit = true ∧ u.axes[n].eng = s.axes[n].eng ∧
      (∀ k : AxisId, k ≠ n → u.axes[k] = s.axes[k]) ∧
      u.banks[b] = { s.banks[b] with events := s.banks[b].events ++ .fault (.phase n phB) bit :: more }
    (16 < l.satRun → l.satUp = false → ∃ u, exec (.phaseSaturation n phB) s = .next u ∧ told u 0 [] ∧
      (u.axes[n].loop phB).satUp = true ∧ u.axes[n].legs = s.axes[n].legs) ∧
    ((l.satRun ≤ 16 ∨ l.satUp = true) → exec (.phaseSaturation n phB) s = .next s) ∧
    ((s.loopCfg n phB).trkcnt ≤ l.trkRun → l.trkRun ≠ 0 → l.trkUp = false → ∃ u, exec (.trackingError n phB) s = .next u ∧
      told u 1 [] ∧ (u.axes[n].loop phB).trkUp = true ∧ u.axes[n].legs = s.axes[n].legs) ∧
    (l.trkUp = true → exec (.trackingError n phB) s = .next s) ∧
    (64 ≤ l.openRun → l.openUp = false → ∃ u, exec (.openPhase n phB) s = .next u ∧ told u 2 [.axisOff (posOf n)] ∧
      (u.axes[n].loop phB).openUp = true ∧
      (s.axes[n].legs.rel = .none → s.axes[n].legs.latch = false → u.axes[n].legs.rel = .lows ∧ u.axes[n].legs.latch = true)) ∧
    ((l.openRun < 64 ∨ l.openUp = true) → exec (.openPhase n phB) s = .next s) ∧
    (∀ (c : BankId) (words : List Nat), s.banks[c].clocked = true → ∃ u, exec (.parityScan c words) s = .next u ∧
      u = { s with axes := u.axes, banks := u.banks } ∧ ∀ key ∈ words, phaseKey c key = true →
        key ∈ u.axes[(Fin.ofNat 48 (keyUnit key / 2) : AxisId)].legs.badWords) ∧
    (∀ (c : BankId) (words : List Nat), s.banks[c].clocked = false → exec (.parityScan c words) s = .next s)

/-- Faults of bank scope and of phases (R99, R252, R258, R343, R345, R347, R350). -/
def Obligations.BankAndPhaseFaults : Prop := BankScopeFaults ∧ PhaseFaults

/-- SPARE_SWAP_COMPLETE (R360 to R362, R364) and BANK_CAL_COMPLETE (R532): a swap that succeeds gives the terminal to
the spare and clears its byte; one that fails marks the spare FAILED and tells SWAPFAIL; a return frees the spare; the
offsets of a calibration are kept and told. -/
def Obligations.SwapsAndCalibration : Prop :=
  ∀ (s : State) (b : BankId),
    let k := s.banks[b]
    (∀ ok series, k.swap = none → exec (.spareSwapComplete b ok series) s = .next s) ∧
    (∀ r : SwapRun, k.swap = some r →
      let n := axisAt b ⟨r.leg.val / 4, by omega⟩
      let spare (u : State) : Spare := if r.second then u.banks[b].spares[1] else u.banks[b].spares[0]
      let old : Spare := if r.second then k.spares[1] else k.spares[0]
      (r.ret = false → ∃ u, exec (.spareSwapComplete b true true) s = .next u ∧ u = { s with axes := u.axes, banks := u.banks } ∧
        spare u = ⟨.inuse, false, r.leg⟩ ∧ u.banks[b].swap = none ∧ u.axes[n].legs.flt[r.leg.val % 4] = 0 ∧
        u.banks[b].events = k.events ++ [.swapDone 0 r.byte]) ∧
      (r.ret = false → ∀ ok series, (ok && series) = false → ∃ u, exec (.spareSwapComplete b ok series) s = .next u ∧
        u = { s with axes := u.axes, banks := u.banks } ∧ (spare u).st = .failed ∧ u.banks[b].swap = none ∧
        u.banks[b].events = k.events ++ .fault (.axis n) 25 :: ((if series then [] else [.fault (.bank b) 8]) ++
          [.swapDone (if (r.byte = 0 ∨ (servedBy k.spares r.leg).isSome = true) ∧ k.retired.getLsbD r.leg.val = false then 1
            else 2) r.byte])) ∧
      (r.ret = true → ∃ u, exec (.spareSwapComplete b true true) s = .next u ∧ spare u = {} ∧ u.banks[b].swap = none ∧
        u.banks[b].events = k.events ++ [.swapDone 0 r.byte]) ∧
      (r.ret = true → ∀ ok series, (ok && series) = false → ∃ u, exec (.spareSwapComplete b ok series) s = .next u ∧
        spare u = { old with swp := false } ∧ u.banks[b].swap = none ∧ u.axes = s.axes)) ∧
    (∀ offsets, k.cal = true → exec (.bankCalComplete b offsets) s = .next (s.modBank b fun x => { x with
      cal := false, offsets := offsets, events := x.events ++ [.calDone (largestChange k.offsets offsets)] })) ∧
    (∀ offsets, k.cal = false → exec (.bankCalComplete b offsets) s = .next s)

/-! ## PWM periods and triggers -/

/-- PWM_PERIOD_START (R41, R305, R313, R329): a bank without clock starts none; the first period of a bank starts at
its offset, floor(b × P / N), the next ones P clocks apart with advancing numbers; an axis that is off gets no
on-time; a bank that is due to leave SAFE or SERVICE enters RUN with number 0. -/
def Obligations.PeriodStarts : Prop :=
  ∀ (s : State) (b : BankId),
    let k := s.banks[b]
    let w := k.pwm
    (k.clocked = false → exec (.pwmPeriodStart b) s = .next s) ∧
    (k.clocked = true → k.releaseDue = false → ∃ u, exec (.pwmPeriodStart b) s = .next u ∧
      (∀ c : BankId, c ≠ b → u.banks[c] = s.banks[c]) ∧ u.nodeP = s.nodeP ∧ u.mbx = s.mbx ∧
      (∀ n : AxisId, u.axes[n].eng = s.axes[n].eng) ∧ u.banks[b].st = k.st ∧
      (w.started = false → u.banks[b].pwm.pstart = ((b.val % 6 * w.use.period / s.part.nBanks : Nat) : Int) ∧
        u.banks[b].pwm.len = w.use.period ∧ u.banks[b].pwm.number = 0 ∧ u.banks[b].pwm.started = true) ∧
      (w.started = true → w.changes = [] → u.banks[b].pwm.pstart = w.pstart + w.len ∧ u.banks[b].pwm.len = w.use.period ∧
        u.banks[b].pwm.number = w.number + 1) ∧
      ∀ p : Pos, s.axes[axisAt b p].legs.latch = true → ∀ i : Fin 16, i.val / 4 = p.val → u.banks[b].pwm.on[i] = 0) ∧
    (k.clocked = true → k.releaseDue = true → s.safeCauses b = 0 → k.safe.lat = 0 → ∃ u,
      exec (.pwmPeriodStart b) s = .next u ∧ u.banks[b].st = .run ∧ u.banks[b].pwm.number = 0 ∧ u.banks[b].releaseDue = false ∧
        u.banks[b].safe.forced = false)

/-- On-times (R306): a code of integer I and fraction F below 100% runs I + 1 clocks where the rank of the period's
number modulo 16 lies below F and I clocks otherwise, so that exactly F of any 16 consecutive periods receive the
extra clock. -/
def Obligations.OnTimes : Prop :=
  ∀ code p start : Nat, 0 < code → code < p * 16 →
    (∀ num : Nat, onTime code num p = code / 16 +
      if [0, 8, 4, 12, 2, 10, 6, 14, 1, 9, 5, 13, 3, 11, 7, 15].getD (num % 16) 0 < code % 16 then 1 else 0) ∧
    ((List.range 16).map fun j => onTime code (start + j) p).sum = code ∧
    ((List.range 16).filter fun j => decide (onTime code (start + j) p = code / 16 + 1)).length = code % 16

/-- The minimum-pulse filter (R309, R310): a short high pulse gives 0% or TMIN, a short low pulse 100% or P − TMIN, by
the mode; any other on-time stays; no pulse shorter than TMIN is left. -/
def Obligations.MinimumPulses : Prop :=
  ∀ (filt : Word) (d p : Nat), d ≤ p → 4800 ≤ p → (filt.extractLsb' 0 9).toNat ≤ 480 →
    let t := (filt.extractLsb' 0 9).toNat
    let stretch := filt.getLsbD 31
    let r := (minPulse filt d p).1
    (0 < d → d < t → minPulse filt d p = (if stretch then t else 0, true)) ∧
    (d < p → p - d < t → minPulse filt d p = (if stretch then p - t else p, true)) ∧
    ((d = 0 ∨ d = p ∨ (t ≤ d ∧ t ≤ p - d)) → minPulse filt d p = (d, false)) ∧
    (r = 0 ∨ r = p ∨ (t ≤ r ∧ t ≤ p - r)) ∧ r ≤ p

/-- TRIGGER_EVENT (R371 to R374, R380): a point that gives no event in the period changes nothing; one too close to
the last is dropped and told; else its selected converters give one entry each, in ascending order under one sequence
number, and the thermal converter goes on to its next input, but for the check phase of a swap or return, in which it takes
the checked output. -/
def Obligations.TriggerEvents : Prop :=
  ∀ (s : State) (b : BankId) (t : BitVec 2) (smp : Sample),
    let k := s.banks[b]
    let word := k.pwm.sel.toList.getD t.toNat 0
    let at_ (time : Int) : Bank := { k with lastTrig := time }
    let es (time : Int) : List Word :=
      ((List.range 18).filter fun c => word.getLsbD c).map fun c => bankEntry t k.seq c ((at_ time).convValue smp c)
    ((k.clocked = false ∨ s.triggerAt b t = none) → exec (.triggerEvent b t smp) s = .next s) ∧
    (∀ time, k.clocked = true → s.triggerAt b t = some (time, true) → exec (.triggerEvent b t smp) s = .next
      (s.modBank b fun x => { x with events := x.events ++ [.trgDrop] })) ∧
    (∀ time, k.clocked = true → s.triggerAt b t = some (time, false) → ∃ u, exec (.triggerEvent b t smp) s = .next u ∧
      (∀ c : BankId, c ≠ b → u.banks[c] = s.banks[c]) ∧ u.nodeP = s.nodeP ∧ u.bankP = s.bankP ∧ u.mbx = s.mbx ∧ u.fn = s.fn ∧
      (∀ n : AxisId, u.axes[n].eng = s.axes[n].eng) ∧ u.banks[b].lastTrig = time ∧ u.banks[b].entries = k.entries ++ es time ∧
      u.banks[b].seq = (if es time = [] then k.seq else k.seq + 1) ∧
      ((at_ time).thermalInput < 9 → u.banks[b].kiln.input = (k.kiln.input + 1) % 9) ∧
      (9 ≤ (at_ time).thermalInput → u.banks[b].kiln = k.kiln))

/-! ## The whole machine -/

/-- A step takes the command at the front of the queue and runs it on the state with the queue's rest; on an empty
queue the block idles, which is the model's choice (log 6). -/
def Obligations.StepRunsFront : Prop :=
  (∀ (s : State) (c : Instr) (r : List Instr), step { s with pending := c :: r } = exec c { s with pending := r }) ∧
  ∀ s : State, s.pending = [] → step s = .next s

/-- No command touches the queue of commands or turns the part into another (R2). -/
def Obligations.QueueUntouched : Prop :=
  ∀ (c : Instr) (s t : State), exec c s = .next t → t.pending = s.pending ∧ t.part = s.part

/-- Every step keeps every addressed memory and every parameter store in its canonical form. -/
def Obligations.StepKeepsCanonical : Prop :=
  ∀ s t : State, s.canonical = true → step s = .next t → t.canonical = true

/-- What reset leaves (R60, R62, R65, R74, R102, R109 to R112, R122, R393, R465): page 0x00, one lane, empty
mailboxes, Proofs OPEN, no fault, staged values equal to the applied defaults; its stores are canonical, and no
command waits. -/
def Obligations.ResetState : Prop :=
  State.reset.canonical = true ∧ State.reset.pending = [] ∧ State.reset.link.page = 0 ∧ State.reset.link.dlanes = 0 ∧
    State.reset.link.clanes = 0 ∧ State.reset.boot = 0 ∧ State.reset.tick = 0 ∧ State.reset.fn.log = [] ∧
    (∀ m : MbId, State.reset.mbx[m].phase = .idle ∧ State.reset.mbx[m].state = 0 ∧ State.reset.mbx[m].cirq = false) ∧
    (∀ b : BlockId, (State.reset.block b).status = 0 ∧ (State.reset.block b).pend = 0 ∧ (State.reset.block b).line = 0) ∧
    (∀ p : ProofId, (State.reset.proofs.get p).state = .open_) ∧
    (∀ n : AxisId, State.reset.axes[n].eng.st = .off ∧ State.reset.axes[n].eng.pos = 0) ∧
    (∀ b : BankId, State.reset.banks[b].view = .unpowered) ∧
    ∀ key, paramGet State.reset.nodeP.applied key = keyDefault key ∧ paramGet State.reset.nodeP.staged key = keyDefault key

/-- Completion (R109, R114, R119): RSP0 takes the state, the count of response words and the echoes of the header; the
words follow; words past the count read 0; CIRQ is set; the mailbox may be rung again. -/
def Obligations.CompletionsShow : Prop :=
  ∀ (x : Mailbox) (st : BitVec 2) (ws : List Word), ws.length ≤ 15 →
    let y := x.finish st ws
    y.state = st ∧ (y.rsp[0].extractLsb' 24 6).toNat = ws.length ∧ y.rsp[0].extractLsb' 0 24 = x.copy[0].extractLsb' 0 24 ∧
      (∀ i : Nat, (h : i < 15) → y.rsp[i + 1] = ws.getD i 0) ∧ y.cirq = true ∧ y.phase = .idle ∧ y.copy = x.copy ∧
      y.cmd = x.cmd ∧ y.ringcnt = x.ringcnt ∧ y.ien = x.ien

/-- A raise of an enabled source (R469, R482): the status bit; the class, one higher where its class is pending, which
ESCNT counts; the pending bit; one entry in the log of 64, the oldest dropped and counted where it is full; NSTAT. A
source that is not enabled sets its status bit and nothing else (R468). -/
def Obligations.RaiseEffects : Prop :=
  ∀ (s : State) (i : BlockId) (bit c : Nat) (test : Bool), bit < 32 → classOf s.part i bit = some c →
    let f := s.block i
    let esc := decide (c < 4) && f.pend.getLsbD c
    let c1 := if esc then c + 1 else c
    let u := (s.raise1 i bit test).1
    (f.fen.getLsbD bit = false → u = s.modBlock i fun g => { g with status := g.status ||| (1#32 <<< bit) }) ∧
    (f.fen.getLsbD bit = true →
      (u.block i).status = f.status ||| (1#32 <<< bit) ∧ (s.raise1 i bit test).2 = c1 ∧
      (u.block i).escnt = (if esc = true ∧ f.escnt ≠ 0xff then f.escnt + 1 else f.escnt) ∧
      (c1 < 4 → (u.block i).pend = f.pend ||| (1#4 <<< c1)) ∧ (c1 = 4 → (u.block i).c4src = true ∧ u.fn.class4 = true) ∧
      (∀ j, j ≠ i → u.block j = s.block j) ∧
      (∃ e, u.fn.log = (if s.fn.log.length < 64 then s.fn.log else s.fn.log.tail) ++ [e] ∧ e.2 = s.keep.rtc ∧
        e.1.extractLsb' 24 8 = i.tcode ∧ (e.1.extractLsb' 12 3).toNat = c1 ∧ (e.1.extractLsb' 16 5).toNat = bit) ∧
      u.fn.lost = (if s.fn.log.length < 64 ∨ s.fn.lost = 0xff then s.fn.lost else s.fn.lost + 1) ∧
      u.fn.ltgt = i.tcode ∧ u.fn.lbit = BitVec.ofNat 5 bit ∧ u.fn.lcls.toNat = c1)

/-- Budgets that sum to more than the allocation are scaled so that they fit in it; else each axis has its own (R242).
-/
def Obligations.BudgetsFit : Prop :=
  ∀ (ialloc : Nat) (l : List Nat),
    (ialloc < l.sum → (l.map (budgetTarget ialloc l.sum)).sum ≤ ialloc ∧
      ∀ b ∈ l, budgetTarget ialloc l.sum b = b * ialloc / l.sum) ∧
    (l.sum ≤ ialloc → l.map (budgetTarget ialloc l.sum) = l)
end

