-- ==== Sys2Proof/Laws/Cells.lean ====
section
/-! SUPPORT. The canonical stores: a read after a write, and that every operation on a store keeps its form. -/
namespace Sys2Proof.Machine

variable {α : Type} [DecidableEq α]

/-- A canonical store from a higher key on is canonical from a lower one on. -/
theorem cellsWf_mono {d : Nat → α} {lo lo' : Nat} {l : List (Nat × α)} (h : lo' ≤ lo) (hl : cellsWf d lo l = true) :
    cellsWf d lo' l = true := by
  cases l with
  | nil => rfl
  | cons c r =>
    simp only [cellsWf, Bool.and_eq_true, decide_eq_true_eq] at hl ⊢
    exact ⟨⟨by omega, hl.1.2⟩, hl.2⟩

/-- A key below a canonical store reads the default. -/
theorem cellGet_below {d : Nat → α} {x : α} {k lo : Nat} {l : List (Nat × α)} (hl : cellsWf d lo l = true) (h : k < lo) :
    cellGet x k l = x := by
  cases l with
  | nil => rfl
  | cons c r =>
    simp only [cellsWf, Bool.and_eq_true, decide_eq_true_eq] at hl
    simp only [cellGet]
    rw [if_neg (by omega), if_pos (by omega)]

/-- A write keeps the canonical form. -/
theorem cellsWf_set {d : Nat → α} {k : Nat} {v : α} :
    ∀ {lo : Nat} {l : List (Nat × α)}, cellsWf d lo l = true → lo ≤ k → cellsWf d lo (cellSet (d k) k v l) = true
  | lo, [], _, h => by
    by_cases hv : v = d k
    · simp [cellSet, hv, cellsWf]
    · simp [cellSet, hv, cellsWf, h]
  | lo, (k', v') :: r, hl, h => by
    simp only [cellsWf, Bool.and_eq_true, decide_eq_true_eq] at hl
    simp only [cellSet]
    split
    · split
      · simp only [cellsWf, Bool.and_eq_true, decide_eq_true_eq]; exact hl
      · simp only [cellsWf, Bool.and_eq_true, decide_eq_true_eq]
        exact ⟨⟨h, by assumption⟩, ⟨by omega, hl.1.2⟩, hl.2⟩
    · split
      · split
        · exact cellsWf_mono (by omega) hl.2
        · simp only [cellsWf, Bool.and_eq_true, decide_eq_true_eq]
          subst k'
          exact ⟨⟨h, by assumption⟩, hl.2⟩
      · simp only [cellsWf, Bool.and_eq_true, decide_eq_true_eq]
        exact ⟨hl.1, cellsWf_set hl.2 (by omega)⟩

/-- A read after a write of the same key gives the value written. -/
theorem cellGet_set_same {d : Nat → α} {k : Nat} {v : α} :
    ∀ {lo : Nat} {l : List (Nat × α)}, cellsWf d lo l = true → cellGet (d k) k (cellSet (d k) k v l) = v
  | _, [], _ => by
    by_cases hv : v = d k
    · simp [cellSet, hv, cellGet]
    · simp [cellSet, hv, cellGet]
  | lo, (k', v') :: r, hl => by
    simp only [cellsWf, Bool.and_eq_true, decide_eq_true_eq] at hl
    simp only [cellSet]
    split
    · split
      · rename_i h1 h2
        simp only [cellGet]
        rw [if_neg (by omega), if_pos h1, h2]
      · simp [cellGet]
    · split
      · split
        · rename_i h1 h2 h3
          rw [cellGet_below hl.2 (by omega), h3]
        · simp [cellGet]
      · rename_i h1 h2
        simp only [cellGet]
        rw [if_neg h2, if_neg h1]
        exact cellGet_set_same hl.2

/-- A write leaves every other key alone. -/
theorem cellGet_set_other {d : Nat → α} {x : α} {k j : Nat} {v : α} (hj : j ≠ k) :
    ∀ {lo : Nat} {l : List (Nat × α)}, cellsWf d lo l = true → cellGet x j (cellSet (d k) k v l) = cellGet x j l
  | _, [], _ => by
    by_cases hv : v = d k
    · simp [cellSet, hv]
    · simp only [cellSet, hv, if_false, cellGet, hj]
      split <;> rfl
  | lo, (k', v') :: r, hl => by
    simp only [cellsWf, Bool.and_eq_true, decide_eq_true_eq] at hl
    simp only [cellSet]
    split
    · split
      · rfl
      · rename_i h1 h2
        simp only [cellGet]
        rw [if_neg hj]
        split
        · rw [if_neg (by omega), if_pos (by omega)]
        · rfl
    · split
      · rename_i h1 h2
        subst h2
        split
        · rename_i h3
          simp only [cellGet]
          rw [if_neg hj]
          split
          · exact cellGet_below hl.2 (by omega)
          · rfl
        · simp only [cellGet, if_neg hj]
      · simp only [cellGet]
        rw [cellGet_set_other hj hl.2]

/-- A filter keeps the canonical form. -/
theorem cellsWf_filter {d : Nat → α} {p : Nat × α → Bool} :
    ∀ {lo : Nat} {l : List (Nat × α)}, cellsWf d lo l = true → cellsWf d lo (l.filter p) = true
  | _, [], _ => rfl
  | lo, (k, v) :: r, hl => by
    simp only [cellsWf, Bool.and_eq_true, decide_eq_true_eq] at hl
    simp only [List.filter]
    split
    · simp only [cellsWf, Bool.and_eq_true, decide_eq_true_eq]
      exact ⟨hl.1, cellsWf_filter hl.2⟩
    · exact cellsWf_mono (by omega) (cellsWf_filter hl.2)

/-- Merging two canonical stores without a common key gives a canonical store. -/
theorem cellsWf_merge {d : Nat → α} :
    ∀ {lo : Nat} {l r : List (Nat × α)}, cellsWf d lo l = true → cellsWf d lo r = true →
      (∀ a ∈ l, ∀ b ∈ r, a.1 ≠ b.1) → cellsWf d lo (mergeCells l r) = true
  | _, [], r, _, hr, _ => by cases r <;> simpa [mergeCells] using hr
  | lo, (k, v) :: l, r, hl, hr, hd => by
    simp only [cellsWf, Bool.and_eq_true, decide_eq_true_eq] at hl
    induction r generalizing lo with
    | nil =>
      simp only [mergeCells, List.takeWhile_nil, List.dropWhile_nil, List.nil_append, cellsWf, Bool.and_eq_true,
        decide_eq_true_eq]
      exact ⟨hl.1, cellsWf_merge hl.2 rfl fun a _ b hb => absurd hb (by simp)⟩
    | cons c r ih =>
      obtain ⟨k', v'⟩ := c
      have hr' := hr
      simp only [cellsWf, Bool.and_eq_true, decide_eq_true_eq] at hr'
      have hne : k ≠ k' := hd (k, v) (by simp) (k', v') (by simp)
      simp only [mergeCells, List.takeWhile_cons, List.dropWhile_cons]
      split
      · rename_i h
        have h := of_decide_eq_true h
        simp only [List.cons_append, cellsWf, Bool.and_eq_true, decide_eq_true_eq]
        exact ⟨hr'.1, ih _ hr'.2 (fun a ha b hb => hd a ha b (by simp [hb])) ⟨⟨by omega, hl.1.2⟩, hl.2⟩⟩
      · rename_i h
        have h : ¬ k' ≤ k := fun e => h (decide_eq_true e)
        simp only [List.nil_append, cellsWf, Bool.and_eq_true, decide_eq_true_eq]
        refine ⟨hl.1, cellsWf_merge hl.2 ?_ fun a ha b hb => hd a (by simp [ha]) b hb⟩
        simp only [cellsWf, Bool.and_eq_true, decide_eq_true_eq]
        exact ⟨⟨by omega, hr'.1.2⟩, hr'.2⟩

/-- Writing bytes keeps a memory canonical: XBUF, keep RAM and firmware slots (R495, R518). -/
theorem putBytes_wf (a : Nat) (l : List Byte) (m : List Host.Cell) (h : Memory.wf 0 m = true) :
    Memory.wf 0 (putBytes a l m) = true := by
  unfold putBytes
  suffices ∀ (l : List Byte) (p : Nat × List Host.Cell), Memory.wf 0 p.2 = true →
      Memory.wf 0 (l.foldl (fun (p : Nat × List Host.Cell) b => (p.1 + 1, cellSet 0 p.1 b p.2)) p).2 = true from this l (a, m) h
  intro l
  induction l with
  | nil => intro p h; exact h
  | cons b r ih => intro p h; exact ih _ (cellsWf_set (d := fun _ => 0) h (Nat.zero_le _))

/-- The write buffer stays canonical (R502). -/
theorem wbufSet_wf (a : Nat) (v : Byte) (m : List Host.Cell) (h : Memory.wf 0xff m = true) :
    Memory.wf 0xff (cellSet 0xff a v m) = true := cellsWf_set (d := fun _ => 0xff) h (Nat.zero_le _)

/-- A write of a parameter keeps its store canonical (R91). -/
theorem paramSet_wf (k : Nat) (v : Word) (l : List (Nat × Word)) (h : cellsWf keyDefault 0 l = true) :
    cellsWf keyDefault 0 (paramSet k v l) = true := cellsWf_set h (Nat.zero_le _)

/-- A parameter reads what was written (R91). -/
theorem paramGet_set_same (k : Nat) (v : Word) (l : List (Nat × Word)) (h : cellsWf keyDefault 0 l = true) :
    paramGet (paramSet k v l) k = v := cellGet_set_same h

/-- A write of a parameter leaves the others alone (R91). -/
theorem paramGet_set_other {j k : Nat} (hj : j ≠ k) (v : Word) (l : List (Nat × Word)) (h : cellsWf keyDefault 0 l = true) :
    paramGet (paramSet k v l) j = paramGet l j := cellGet_set_other hj h

/-- Staging a value keeps both stores canonical. -/
theorem Params.stage_wf (k : Nat) (v : Word) (p : Params) (h : p.wf = true) : (p.stage k v).wf = true := by
  simp only [Params.wf, Params.stage, Bool.and_eq_true] at h ⊢
  exact ⟨h.1, paramSet_wf k v _ h.2⟩

/-- Staging and applying a value keeps both stores canonical. -/
theorem Params.put_wf (k : Nat) (v : Word) (p : Params) (h : p.wf = true) : (p.put k v).wf = true := by
  simp only [Params.wf, Params.put, Bool.and_eq_true] at h ⊢
  exact ⟨paramSet_wf k v _ h.1, paramSet_wf k v _ h.2⟩

/-- Taking the values of the keys that satisfy a predicate from one store and the others from another (R92). -/
theorem mergeOn_wf (p : Nat → Bool) (a b : List (Nat × Word)) (ha : cellsWf keyDefault 0 a = true)
    (hb : cellsWf keyDefault 0 b = true) :
    cellsWf keyDefault 0 (mergeCells (a.filter fun c => !p c.1) (b.filter fun c => p c.1)) = true := by
  refine cellsWf_merge (cellsWf_filter ha) (cellsWf_filter hb) ?_
  intro x hx y hy h
  simp only [List.mem_filter, Bool.not_eq_true'] at hx hy
  rw [h, hy.2] at hx
  exact absurd hx.2 (by decide)

/-- A boundary keeps both stores canonical (R92). -/
theorem Params.applyWhere_wf (p : Nat → Bool) (q : Params) (h : q.wf = true) : (q.applyWhere p).wf = true := by
  simp only [Params.wf, Params.applyWhere, Bool.and_eq_true] at h ⊢
  exact ⟨mergeOn_wf p _ _ h.1 h.2, h.2⟩

/-- Discarding staged values keeps both stores canonical (R91, R155). -/
theorem Params.discardWhere_wf (p : Nat → Bool) (q : Params) (h : q.wf = true) : (q.discardWhere p).wf = true := by
  simp only [Params.wf, Params.discardWhere, Bool.and_eq_true] at h ⊢
  exact ⟨h.1, mergeOn_wf p _ _ h.2 h.1⟩

/-- Every store is canonical right after reset. -/
theorem reset_canonical : State.reset.canonical = true := by decide

end Sys2Proof.Machine
end

