-- ==== Sys2Proof/Laws/State.lean ====
section
/-! SUPPORT. One lemma per field per update of the state: what each named update leaves alone, and what it writes. -/
namespace Sys2Proof.Machine

variable (s : State)

/-! ## `State.modAxis` -/

@[simp] theorem State.modAxis_part (n : AxisId) (f : Axis → Axis) : (s.modAxis n f).part = s.part := rfl
@[simp] theorem State.modAxis_isN1 (n : AxisId) (f : Axis → Axis) : (s.modAxis n f).isN1 = s.isN1 := rfl
@[simp] theorem State.modAxis_pending (n : AxisId) (f : Axis → Axis) : (s.modAxis n f).pending = s.pending := rfl
@[simp] theorem State.modAxis_link (n : AxisId) (f : Axis → Axis) : (s.modAxis n f).link = s.link := rfl
@[simp] theorem State.modAxis_mbx (n : AxisId) (f : Axis → Axis) : (s.modAxis n f).mbx = s.mbx := rfl
@[simp] theorem State.modAxis_ringSeq (n : AxisId) (f : Axis → Axis) : (s.modAxis n f).ringSeq = s.ringSeq := rfl
@[simp] theorem State.modAxis_blocks (n : AxisId) (f : Axis → Axis) : (s.modAxis n f).blocks = s.blocks := rfl
@[simp] theorem State.modAxis_fn (n : AxisId) (f : Axis → Axis) : (s.modAxis n f).fn = s.fn := rfl
@[simp] theorem State.modAxis_nodeP (n : AxisId) (f : Axis → Axis) : (s.modAxis n f).nodeP = s.nodeP := rfl
@[simp] theorem State.modAxis_bankP (n : AxisId) (f : Axis → Axis) : (s.modAxis n f).bankP = s.bankP := rfl
@[simp] theorem State.modAxis_proofs (n : AxisId) (f : Axis → Axis) : (s.modAxis n f).proofs = s.proofs := rfl
@[simp] theorem State.modAxis_commits (n : AxisId) (f : Axis → Axis) : (s.modAxis n f).commits = s.commits := rfl
@[simp] theorem State.modAxis_banks (n : AxisId) (f : Axis → Axis) : (s.modAxis n f).banks = s.banks := rfl
@[simp] theorem State.modAxis_batchTick (n : AxisId) (f : Axis → Axis) : (s.modAxis n f).batchTick = s.batchTick := rfl
@[simp] theorem State.modAxis_bdrop (n : AxisId) (f : Axis → Axis) : (s.modAxis n f).bdrop = s.bdrop := rfl
@[simp] theorem State.modAxis_auxq (n : AxisId) (f : Axis → Axis) : (s.modAxis n f).auxq = s.auxq := rfl
@[simp] theorem State.modAxis_auxs (n : AxisId) (f : Axis → Axis) : (s.modAxis n f).auxs = s.auxs := rfl
@[simp] theorem State.modAxis_entry (n : AxisId) (f : Axis → Axis) : (s.modAxis n f).entry = s.entry := rfl
@[simp] theorem State.modAxis_keep (n : AxisId) (f : Axis → Axis) : (s.modAxis n f).keep = s.keep := rfl
@[simp] theorem State.modAxis_kiln (n : AxisId) (f : Axis → Axis) : (s.modAxis n f).kiln = s.kiln := rfl
@[simp] theorem State.modAxis_tick (n : AxisId) (f : Axis → Axis) : (s.modAxis n f).tick = s.tick := rfl
@[simp] theorem State.modAxis_units (n : AxisId) (f : Axis → Axis) : (s.modAxis n f).units = s.units := rfl
@[simp] theorem State.modAxis_elapsed (n : AxisId) (f : Axis → Axis) : (s.modAxis n f).elapsed = s.elapsed := rfl
@[simp] theorem State.modAxis_edgeT (n : AxisId) (f : Axis → Axis) : (s.modAxis n f).edgeT = s.edgeT := rfl
@[simp] theorem State.modAxis_clk (n : AxisId) (f : Axis → Axis) : (s.modAxis n f).clk = s.clk := rfl
@[simp] theorem State.modAxis_groupSeq (n : AxisId) (f : Axis → Axis) : (s.modAxis n f).groupSeq = s.groupSeq := rfl
@[simp] theorem State.modAxis_opSeq (n : AxisId) (f : Axis → Axis) : (s.modAxis n f).opSeq = s.opSeq := rfl
@[simp] theorem State.modAxis_boot (n : AxisId) (f : Axis → Axis) : (s.modAxis n f).boot = s.boot := rfl
@[simp] theorem State.modAxis_haltC4 (n : AxisId) (f : Axis → Axis) : (s.modAxis n f).haltC4 = s.haltC4 := rfl
@[simp] theorem State.modAxis_links (n : AxisId) (f : Axis → Axis) : (s.modAxis n f).links = s.links := rfl
@[simp] theorem State.modAxis_powered (n : AxisId) (f : Axis → Axis) : (s.modAxis n f).powered = s.powered := rfl
@[simp] theorem State.modAxis_refOk (n : AxisId) (f : Axis → Axis) : (s.modAxis n f).refOk = s.refOk := rfl
@[simp] theorem State.modAxis_nstopLow (n : AxisId) (f : Axis → Axis) : (s.modAxis n f).nstopLow = s.nstopLow := rfl
@[simp] theorem State.modAxis_nfltLow (n : AxisId) (f : Axis → Axis) : (s.modAxis n f).nfltLow = s.nfltLow := rfl
@[simp] theorem State.modAxis_enPins (n : AxisId) (f : Axis → Axis) : (s.modAxis n f).enPins = s.enPins := rfl
@[simp] theorem State.modAxis_fbs (n : AxisId) (f : Axis → Axis) : (s.modAxis n f).fbs = s.fbs := rfl
@[simp] theorem State.modAxis_emus (n : AxisId) (f : Axis → Axis) : (s.modAxis n f).emus = s.emus := rfl
@[simp] theorem State.modAxis_mem (n : AxisId) (f : Axis → Axis) : (s.modAxis n f).mem = s.mem := rfl
@[simp] theorem State.modAxis_nv (n : AxisId) (f : Axis → Axis) : (s.modAxis n f).nv = s.nv := rfl
@[simp] theorem State.modAxis_pair (n : AxisId) (f : Axis → Axis) : (s.modAxis n f).pair = s.pair := rfl
@[simp] theorem State.modAxis_perf (n : AxisId) (f : Axis → Axis) : (s.modAxis n f).perf = s.perf := rfl
@[simp] theorem State.modAxis_gpio (n : AxisId) (f : Axis → Axis) : (s.modAxis n f).gpio = s.gpio := rfl
@[simp] theorem State.modAxis_free (n : AxisId) (f : Axis → Axis) : (s.modAxis n f).free = s.free := rfl

/-! ## `State.modBank` -/

@[simp] theorem State.modBank_part (b : BankId) (f : Bank → Bank) : (s.modBank b f).part = s.part := rfl
@[simp] theorem State.modBank_isN1 (b : BankId) (f : Bank → Bank) : (s.modBank b f).isN1 = s.isN1 := rfl
@[simp] theorem State.modBank_pending (b : BankId) (f : Bank → Bank) : (s.modBank b f).pending = s.pending := rfl
@[simp] theorem State.modBank_link (b : BankId) (f : Bank → Bank) : (s.modBank b f).link = s.link := rfl
@[simp] theorem State.modBank_mbx (b : BankId) (f : Bank → Bank) : (s.modBank b f).mbx = s.mbx := rfl
@[simp] theorem State.modBank_ringSeq (b : BankId) (f : Bank → Bank) : (s.modBank b f).ringSeq = s.ringSeq := rfl
@[simp] theorem State.modBank_blocks (b : BankId) (f : Bank → Bank) : (s.modBank b f).blocks = s.blocks := rfl
@[simp] theorem State.modBank_fn (b : BankId) (f : Bank → Bank) : (s.modBank b f).fn = s.fn := rfl
@[simp] theorem State.modBank_nodeP (b : BankId) (f : Bank → Bank) : (s.modBank b f).nodeP = s.nodeP := rfl
@[simp] theorem State.modBank_bankP (b : BankId) (f : Bank → Bank) : (s.modBank b f).bankP = s.bankP := rfl
@[simp] theorem State.modBank_proofs (b : BankId) (f : Bank → Bank) : (s.modBank b f).proofs = s.proofs := rfl
@[simp] theorem State.modBank_commits (b : BankId) (f : Bank → Bank) : (s.modBank b f).commits = s.commits := rfl
@[simp] theorem State.modBank_axes (b : BankId) (f : Bank → Bank) : (s.modBank b f).axes = s.axes := rfl
@[simp] theorem State.modBank_batchTick (b : BankId) (f : Bank → Bank) : (s.modBank b f).batchTick = s.batchTick := rfl
@[simp] theorem State.modBank_bdrop (b : BankId) (f : Bank → Bank) : (s.modBank b f).bdrop = s.bdrop := rfl
@[simp] theorem State.modBank_auxq (b : BankId) (f : Bank → Bank) : (s.modBank b f).auxq = s.auxq := rfl
@[simp] theorem State.modBank_auxs (b : BankId) (f : Bank → Bank) : (s.modBank b f).auxs = s.auxs := rfl
@[simp] theorem State.modBank_entry (b : BankId) (f : Bank → Bank) : (s.modBank b f).entry = s.entry := rfl
@[simp] theorem State.modBank_keep (b : BankId) (f : Bank → Bank) : (s.modBank b f).keep = s.keep := rfl
@[simp] theorem State.modBank_kiln (b : BankId) (f : Bank → Bank) : (s.modBank b f).kiln = s.kiln := rfl
@[simp] theorem State.modBank_tick (b : BankId) (f : Bank → Bank) : (s.modBank b f).tick = s.tick := rfl
@[simp] theorem State.modBank_units (b : BankId) (f : Bank → Bank) : (s.modBank b f).units = s.units := rfl
@[simp] theorem State.modBank_elapsed (b : BankId) (f : Bank → Bank) : (s.modBank b f).elapsed = s.elapsed := rfl
@[simp] theorem State.modBank_edgeT (b : BankId) (f : Bank → Bank) : (s.modBank b f).edgeT = s.edgeT := rfl
@[simp] theorem State.modBank_clk (b : BankId) (f : Bank → Bank) : (s.modBank b f).clk = s.clk := rfl
@[simp] theorem State.modBank_groupSeq (b : BankId) (f : Bank → Bank) : (s.modBank b f).groupSeq = s.groupSeq := rfl
@[simp] theorem State.modBank_opSeq (b : BankId) (f : Bank → Bank) : (s.modBank b f).opSeq = s.opSeq := rfl
@[simp] theorem State.modBank_boot (b : BankId) (f : Bank → Bank) : (s.modBank b f).boot = s.boot := rfl
@[simp] theorem State.modBank_haltC4 (b : BankId) (f : Bank → Bank) : (s.modBank b f).haltC4 = s.haltC4 := rfl
@[simp] theorem State.modBank_links (b : BankId) (f : Bank → Bank) : (s.modBank b f).links = s.links := rfl
@[simp] theorem State.modBank_powered (b : BankId) (f : Bank → Bank) : (s.modBank b f).powered = s.powered := rfl
@[simp] theorem State.modBank_refOk (b : BankId) (f : Bank → Bank) : (s.modBank b f).refOk = s.refOk := rfl
@[simp] theorem State.modBank_nstopLow (b : BankId) (f : Bank → Bank) : (s.modBank b f).nstopLow = s.nstopLow := rfl
@[simp] theorem State.modBank_nfltLow (b : BankId) (f : Bank → Bank) : (s.modBank b f).nfltLow = s.nfltLow := rfl
@[simp] theorem State.modBank_enPins (b : BankId) (f : Bank → Bank) : (s.modBank b f).enPins = s.enPins := rfl
@[simp] theorem State.modBank_fbs (b : BankId) (f : Bank → Bank) : (s.modBank b f).fbs = s.fbs := rfl
@[simp] theorem State.modBank_emus (b : BankId) (f : Bank → Bank) : (s.modBank b f).emus = s.emus := rfl
@[simp] theorem State.modBank_mem (b : BankId) (f : Bank → Bank) : (s.modBank b f).mem = s.mem := rfl
@[simp] theorem State.modBank_nv (b : BankId) (f : Bank → Bank) : (s.modBank b f).nv = s.nv := rfl
@[simp] theorem State.modBank_pair (b : BankId) (f : Bank → Bank) : (s.modBank b f).pair = s.pair := rfl
@[simp] theorem State.modBank_perf (b : BankId) (f : Bank → Bank) : (s.modBank b f).perf = s.perf := rfl
@[simp] theorem State.modBank_gpio (b : BankId) (f : Bank → Bank) : (s.modBank b f).gpio = s.gpio := rfl
@[simp] theorem State.modBank_free (b : BankId) (f : Bank → Bank) : (s.modBank b f).free = s.free := rfl

/-! ## `State.modBlock` -/

@[simp] theorem State.modBlock_part (i : BlockId) (f : FBlock → FBlock) : (s.modBlock i f).part = s.part := rfl
@[simp] theorem State.modBlock_isN1 (i : BlockId) (f : FBlock → FBlock) : (s.modBlock i f).isN1 = s.isN1 := rfl
@[simp] theorem State.modBlock_pending (i : BlockId) (f : FBlock → FBlock) : (s.modBlock i f).pending = s.pending := rfl
@[simp] theorem State.modBlock_link (i : BlockId) (f : FBlock → FBlock) : (s.modBlock i f).link = s.link := rfl
@[simp] theorem State.modBlock_mbx (i : BlockId) (f : FBlock → FBlock) : (s.modBlock i f).mbx = s.mbx := rfl
@[simp] theorem State.modBlock_ringSeq (i : BlockId) (f : FBlock → FBlock) : (s.modBlock i f).ringSeq = s.ringSeq := rfl
@[simp] theorem State.modBlock_fn (i : BlockId) (f : FBlock → FBlock) : (s.modBlock i f).fn = s.fn := rfl
@[simp] theorem State.modBlock_nodeP (i : BlockId) (f : FBlock → FBlock) : (s.modBlock i f).nodeP = s.nodeP := rfl
@[simp] theorem State.modBlock_bankP (i : BlockId) (f : FBlock → FBlock) : (s.modBlock i f).bankP = s.bankP := rfl
@[simp] theorem State.modBlock_proofs (i : BlockId) (f : FBlock → FBlock) : (s.modBlock i f).proofs = s.proofs := rfl
@[simp] theorem State.modBlock_commits (i : BlockId) (f : FBlock → FBlock) : (s.modBlock i f).commits = s.commits := rfl
@[simp] theorem State.modBlock_axes (i : BlockId) (f : FBlock → FBlock) : (s.modBlock i f).axes = s.axes := rfl
@[simp] theorem State.modBlock_banks (i : BlockId) (f : FBlock → FBlock) : (s.modBlock i f).banks = s.banks := rfl
@[simp] theorem State.modBlock_batchTick (i : BlockId) (f : FBlock → FBlock) : (s.modBlock i f).batchTick = s.batchTick := rfl
@[simp] theorem State.modBlock_bdrop (i : BlockId) (f : FBlock → FBlock) : (s.modBlock i f).bdrop = s.bdrop := rfl
@[simp] theorem State.modBlock_auxq (i : BlockId) (f : FBlock → FBlock) : (s.modBlock i f).auxq = s.auxq := rfl
@[simp] theorem State.modBlock_auxs (i : BlockId) (f : FBlock → FBlock) : (s.modBlock i f).auxs = s.auxs := rfl
@[simp] theorem State.modBlock_entry (i : BlockId) (f : FBlock → FBlock) : (s.modBlock i f).entry = s.entry := rfl
@[simp] theorem State.modBlock_keep (i : BlockId) (f : FBlock → FBlock) : (s.modBlock i f).keep = s.keep := rfl
@[simp] theorem State.modBlock_kiln (i : BlockId) (f : FBlock → FBlock) : (s.modBlock i f).kiln = s.kiln := rfl
@[simp] theorem State.modBlock_tick (i : BlockId) (f : FBlock → FBlock) : (s.modBlock i f).tick = s.tick := rfl
@[simp] theorem State.modBlock_units (i : BlockId) (f : FBlock → FBlock) : (s.modBlock i f).units = s.units := rfl
@[simp] theorem State.modBlock_elapsed (i : BlockId) (f : FBlock → FBlock) : (s.modBlock i f).elapsed = s.elapsed := rfl
@[simp] theorem State.modBlock_edgeT (i : BlockId) (f : FBlock → FBlock) : (s.modBlock i f).edgeT = s.edgeT := rfl
@[simp] theorem State.modBlock_clk (i : BlockId) (f : FBlock → FBlock) : (s.modBlock i f).clk = s.clk := rfl
@[simp] theorem State.modBlock_groupSeq (i : BlockId) (f : FBlock → FBlock) : (s.modBlock i f).groupSeq = s.groupSeq := rfl
@[simp] theorem State.modBlock_opSeq (i : BlockId) (f : FBlock → FBlock) : (s.modBlock i f).opSeq = s.opSeq := rfl
@[simp] theorem State.modBlock_boot (i : BlockId) (f : FBlock → FBlock) : (s.modBlock i f).boot = s.boot := rfl
@[simp] theorem State.modBlock_haltC4 (i : BlockId) (f : FBlock → FBlock) : (s.modBlock i f).haltC4 = s.haltC4 := rfl
@[simp] theorem State.modBlock_links (i : BlockId) (f : FBlock → FBlock) : (s.modBlock i f).links = s.links := rfl
@[simp] theorem State.modBlock_powered (i : BlockId) (f : FBlock → FBlock) : (s.modBlock i f).powered = s.powered := rfl
@[simp] theorem State.modBlock_refOk (i : BlockId) (f : FBlock → FBlock) : (s.modBlock i f).refOk = s.refOk := rfl
@[simp] theorem State.modBlock_nstopLow (i : BlockId) (f : FBlock → FBlock) : (s.modBlock i f).nstopLow = s.nstopLow := rfl
@[simp] theorem State.modBlock_nfltLow (i : BlockId) (f : FBlock → FBlock) : (s.modBlock i f).nfltLow = s.nfltLow := rfl
@[simp] theorem State.modBlock_enPins (i : BlockId) (f : FBlock → FBlock) : (s.modBlock i f).enPins = s.enPins := rfl
@[simp] theorem State.modBlock_fbs (i : BlockId) (f : FBlock → FBlock) : (s.modBlock i f).fbs = s.fbs := rfl
@[simp] theorem State.modBlock_emus (i : BlockId) (f : FBlock → FBlock) : (s.modBlock i f).emus = s.emus := rfl
@[simp] theorem State.modBlock_mem (i : BlockId) (f : FBlock → FBlock) : (s.modBlock i f).mem = s.mem := rfl
@[simp] theorem State.modBlock_nv (i : BlockId) (f : FBlock → FBlock) : (s.modBlock i f).nv = s.nv := rfl
@[simp] theorem State.modBlock_pair (i : BlockId) (f : FBlock → FBlock) : (s.modBlock i f).pair = s.pair := rfl
@[simp] theorem State.modBlock_perf (i : BlockId) (f : FBlock → FBlock) : (s.modBlock i f).perf = s.perf := rfl
@[simp] theorem State.modBlock_gpio (i : BlockId) (f : FBlock → FBlock) : (s.modBlock i f).gpio = s.gpio := rfl
@[simp] theorem State.modBlock_free (i : BlockId) (f : FBlock → FBlock) : (s.modBlock i f).free = s.free := rfl

/-! ## `State.modMb` -/

@[simp] theorem State.modMb_part (m : MbId) (f : Mailbox → Mailbox) : (s.modMb m f).part = s.part := rfl
@[simp] theorem State.modMb_isN1 (m : MbId) (f : Mailbox → Mailbox) : (s.modMb m f).isN1 = s.isN1 := rfl
@[simp] theorem State.modMb_pending (m : MbId) (f : Mailbox → Mailbox) : (s.modMb m f).pending = s.pending := rfl
@[simp] theorem State.modMb_link (m : MbId) (f : Mailbox → Mailbox) : (s.modMb m f).link = s.link := rfl
@[simp] theorem State.modMb_ringSeq (m : MbId) (f : Mailbox → Mailbox) : (s.modMb m f).ringSeq = s.ringSeq := rfl
@[simp] theorem State.modMb_blocks (m : MbId) (f : Mailbox → Mailbox) : (s.modMb m f).blocks = s.blocks := rfl
@[simp] theorem State.modMb_fn (m : MbId) (f : Mailbox → Mailbox) : (s.modMb m f).fn = s.fn := rfl
@[simp] theorem State.modMb_nodeP (m : MbId) (f : Mailbox → Mailbox) : (s.modMb m f).nodeP = s.nodeP := rfl
@[simp] theorem State.modMb_bankP (m : MbId) (f : Mailbox → Mailbox) : (s.modMb m f).bankP = s.bankP := rfl
@[simp] theorem State.modMb_proofs (m : MbId) (f : Mailbox → Mailbox) : (s.modMb m f).proofs = s.proofs := rfl
@[simp] theorem State.modMb_commits (m : MbId) (f : Mailbox → Mailbox) : (s.modMb m f).commits = s.commits := rfl
@[simp] theorem State.modMb_axes (m : MbId) (f : Mailbox → Mailbox) : (s.modMb m f).axes = s.axes := rfl
@[simp] theorem State.modMb_banks (m : MbId) (f : Mailbox → Mailbox) : (s.modMb m f).banks = s.banks := rfl
@[simp] theorem State.modMb_batchTick (m : MbId) (f : Mailbox → Mailbox) : (s.modMb m f).batchTick = s.batchTick := rfl
@[simp] theorem State.modMb_bdrop (m : MbId) (f : Mailbox → Mailbox) : (s.modMb m f).bdrop = s.bdrop := rfl
@[simp] theorem State.modMb_auxq (m : MbId) (f : Mailbox → Mailbox) : (s.modMb m f).auxq = s.auxq := rfl
@[simp] theorem State.modMb_auxs (m : MbId) (f : Mailbox → Mailbox) : (s.modMb m f).auxs = s.auxs := rfl
@[simp] theorem State.modMb_entry (m : MbId) (f : Mailbox → Mailbox) : (s.modMb m f).entry = s.entry := rfl
@[simp] theorem State.modMb_keep (m : MbId) (f : Mailbox → Mailbox) : (s.modMb m f).keep = s.keep := rfl
@[simp] theorem State.modMb_kiln (m : MbId) (f : Mailbox → Mailbox) : (s.modMb m f).kiln = s.kiln := rfl
@[simp] theorem State.modMb_tick (m : MbId) (f : Mailbox → Mailbox) : (s.modMb m f).tick = s.tick := rfl
@[simp] theorem State.modMb_units (m : MbId) (f : Mailbox → Mailbox) : (s.modMb m f).units = s.units := rfl
@[simp] theorem State.modMb_elapsed (m : MbId) (f : Mailbox → Mailbox) : (s.modMb m f).elapsed = s.elapsed := rfl
@[simp] theorem State.modMb_edgeT (m : MbId) (f : Mailbox → Mailbox) : (s.modMb m f).edgeT = s.edgeT := rfl
@[simp] theorem State.modMb_clk (m : MbId) (f : Mailbox → Mailbox) : (s.modMb m f).clk = s.clk := rfl
@[simp] theorem State.modMb_groupSeq (m : MbId) (f : Mailbox → Mailbox) : (s.modMb m f).groupSeq = s.groupSeq := rfl
@[simp] theorem State.modMb_opSeq (m : MbId) (f : Mailbox → Mailbox) : (s.modMb m f).opSeq = s.opSeq := rfl
@[simp] theorem State.modMb_boot (m : MbId) (f : Mailbox → Mailbox) : (s.modMb m f).boot = s.boot := rfl
@[simp] theorem State.modMb_haltC4 (m : MbId) (f : Mailbox → Mailbox) : (s.modMb m f).haltC4 = s.haltC4 := rfl
@[simp] theorem State.modMb_links (m : MbId) (f : Mailbox → Mailbox) : (s.modMb m f).links = s.links := rfl
@[simp] theorem State.modMb_powered (m : MbId) (f : Mailbox → Mailbox) : (s.modMb m f).powered = s.powered := rfl
@[simp] theorem State.modMb_refOk (m : MbId) (f : Mailbox → Mailbox) : (s.modMb m f).refOk = s.refOk := rfl
@[simp] theorem State.modMb_nstopLow (m : MbId) (f : Mailbox → Mailbox) : (s.modMb m f).nstopLow = s.nstopLow := rfl
@[simp] theorem State.modMb_nfltLow (m : MbId) (f : Mailbox → Mailbox) : (s.modMb m f).nfltLow = s.nfltLow := rfl
@[simp] theorem State.modMb_enPins (m : MbId) (f : Mailbox → Mailbox) : (s.modMb m f).enPins = s.enPins := rfl
@[simp] theorem State.modMb_fbs (m : MbId) (f : Mailbox → Mailbox) : (s.modMb m f).fbs = s.fbs := rfl
@[simp] theorem State.modMb_emus (m : MbId) (f : Mailbox → Mailbox) : (s.modMb m f).emus = s.emus := rfl
@[simp] theorem State.modMb_mem (m : MbId) (f : Mailbox → Mailbox) : (s.modMb m f).mem = s.mem := rfl
@[simp] theorem State.modMb_nv (m : MbId) (f : Mailbox → Mailbox) : (s.modMb m f).nv = s.nv := rfl
@[simp] theorem State.modMb_pair (m : MbId) (f : Mailbox → Mailbox) : (s.modMb m f).pair = s.pair := rfl
@[simp] theorem State.modMb_perf (m : MbId) (f : Mailbox → Mailbox) : (s.modMb m f).perf = s.perf := rfl
@[simp] theorem State.modMb_gpio (m : MbId) (f : Mailbox → Mailbox) : (s.modMb m f).gpio = s.gpio := rfl
@[simp] theorem State.modMb_free (m : MbId) (f : Mailbox → Mailbox) : (s.modMb m f).free = s.free := rfl

/-! ## `State.modFb` -/

@[simp] theorem State.modFb_part (n : FbId) (f : FbChan → FbChan) : (s.modFb n f).part = s.part := rfl
@[simp] theorem State.modFb_isN1 (n : FbId) (f : FbChan → FbChan) : (s.modFb n f).isN1 = s.isN1 := rfl
@[simp] theorem State.modFb_pending (n : FbId) (f : FbChan → FbChan) : (s.modFb n f).pending = s.pending := rfl
@[simp] theorem State.modFb_link (n : FbId) (f : FbChan → FbChan) : (s.modFb n f).link = s.link := rfl
@[simp] theorem State.modFb_mbx (n : FbId) (f : FbChan → FbChan) : (s.modFb n f).mbx = s.mbx := rfl
@[simp] theorem State.modFb_ringSeq (n : FbId) (f : FbChan → FbChan) : (s.modFb n f).ringSeq = s.ringSeq := rfl
@[simp] theorem State.modFb_blocks (n : FbId) (f : FbChan → FbChan) : (s.modFb n f).blocks = s.blocks := rfl
@[simp] theorem State.modFb_fn (n : FbId) (f : FbChan → FbChan) : (s.modFb n f).fn = s.fn := rfl
@[simp] theorem State.modFb_nodeP (n : FbId) (f : FbChan → FbChan) : (s.modFb n f).nodeP = s.nodeP := rfl
@[simp] theorem State.modFb_bankP (n : FbId) (f : FbChan → FbChan) : (s.modFb n f).bankP = s.bankP := rfl
@[simp] theorem State.modFb_proofs (n : FbId) (f : FbChan → FbChan) : (s.modFb n f).proofs = s.proofs := rfl
@[simp] theorem State.modFb_commits (n : FbId) (f : FbChan → FbChan) : (s.modFb n f).commits = s.commits := rfl
@[simp] theorem State.modFb_axes (n : FbId) (f : FbChan → FbChan) : (s.modFb n f).axes = s.axes := rfl
@[simp] theorem State.modFb_banks (n : FbId) (f : FbChan → FbChan) : (s.modFb n f).banks = s.banks := rfl
@[simp] theorem State.modFb_batchTick (n : FbId) (f : FbChan → FbChan) : (s.modFb n f).batchTick = s.batchTick := rfl
@[simp] theorem State.modFb_bdrop (n : FbId) (f : FbChan → FbChan) : (s.modFb n f).bdrop = s.bdrop := rfl
@[simp] theorem State.modFb_auxq (n : FbId) (f : FbChan → FbChan) : (s.modFb n f).auxq = s.auxq := rfl
@[simp] theorem State.modFb_auxs (n : FbId) (f : FbChan → FbChan) : (s.modFb n f).auxs = s.auxs := rfl
@[simp] theorem State.modFb_entry (n : FbId) (f : FbChan → FbChan) : (s.modFb n f).entry = s.entry := rfl
@[simp] theorem State.modFb_keep (n : FbId) (f : FbChan → FbChan) : (s.modFb n f).keep = s.keep := rfl
@[simp] theorem State.modFb_kiln (n : FbId) (f : FbChan → FbChan) : (s.modFb n f).kiln = s.kiln := rfl
@[simp] theorem State.modFb_tick (n : FbId) (f : FbChan → FbChan) : (s.modFb n f).tick = s.tick := rfl
@[simp] theorem State.modFb_units (n : FbId) (f : FbChan → FbChan) : (s.modFb n f).units = s.units := rfl
@[simp] theorem State.modFb_elapsed (n : FbId) (f : FbChan → FbChan) : (s.modFb n f).elapsed = s.elapsed := rfl
@[simp] theorem State.modFb_edgeT (n : FbId) (f : FbChan → FbChan) : (s.modFb n f).edgeT = s.edgeT := rfl
@[simp] theorem State.modFb_clk (n : FbId) (f : FbChan → FbChan) : (s.modFb n f).clk = s.clk := rfl
@[simp] theorem State.modFb_groupSeq (n : FbId) (f : FbChan → FbChan) : (s.modFb n f).groupSeq = s.groupSeq := rfl
@[simp] theorem State.modFb_opSeq (n : FbId) (f : FbChan → FbChan) : (s.modFb n f).opSeq = s.opSeq := rfl
@[simp] theorem State.modFb_boot (n : FbId) (f : FbChan → FbChan) : (s.modFb n f).boot = s.boot := rfl
@[simp] theorem State.modFb_haltC4 (n : FbId) (f : FbChan → FbChan) : (s.modFb n f).haltC4 = s.haltC4 := rfl
@[simp] theorem State.modFb_links (n : FbId) (f : FbChan → FbChan) : (s.modFb n f).links = s.links := rfl
@[simp] theorem State.modFb_powered (n : FbId) (f : FbChan → FbChan) : (s.modFb n f).powered = s.powered := rfl
@[simp] theorem State.modFb_refOk (n : FbId) (f : FbChan → FbChan) : (s.modFb n f).refOk = s.refOk := rfl
@[simp] theorem State.modFb_nstopLow (n : FbId) (f : FbChan → FbChan) : (s.modFb n f).nstopLow = s.nstopLow := rfl
@[simp] theorem State.modFb_nfltLow (n : FbId) (f : FbChan → FbChan) : (s.modFb n f).nfltLow = s.nfltLow := rfl
@[simp] theorem State.modFb_enPins (n : FbId) (f : FbChan → FbChan) : (s.modFb n f).enPins = s.enPins := rfl
@[simp] theorem State.modFb_emus (n : FbId) (f : FbChan → FbChan) : (s.modFb n f).emus = s.emus := rfl
@[simp] theorem State.modFb_mem (n : FbId) (f : FbChan → FbChan) : (s.modFb n f).mem = s.mem := rfl
@[simp] theorem State.modFb_nv (n : FbId) (f : FbChan → FbChan) : (s.modFb n f).nv = s.nv := rfl
@[simp] theorem State.modFb_pair (n : FbId) (f : FbChan → FbChan) : (s.modFb n f).pair = s.pair := rfl
@[simp] theorem State.modFb_perf (n : FbId) (f : FbChan → FbChan) : (s.modFb n f).perf = s.perf := rfl
@[simp] theorem State.modFb_gpio (n : FbId) (f : FbChan → FbChan) : (s.modFb n f).gpio = s.gpio := rfl
@[simp] theorem State.modFb_free (n : FbId) (f : FbChan → FbChan) : (s.modFb n f).free = s.free := rfl

/-! ## `State.modEmu` -/

@[simp] theorem State.modEmu_part (n : EmuId) (f : Emu → Emu) : (s.modEmu n f).part = s.part := rfl
@[simp] theorem State.modEmu_isN1 (n : EmuId) (f : Emu → Emu) : (s.modEmu n f).isN1 = s.isN1 := rfl
@[simp] theorem State.modEmu_pending (n : EmuId) (f : Emu → Emu) : (s.modEmu n f).pending = s.pending := rfl
@[simp] theorem State.modEmu_link (n : EmuId) (f : Emu → Emu) : (s.modEmu n f).link = s.link := rfl
@[simp] theorem State.modEmu_mbx (n : EmuId) (f : Emu → Emu) : (s.modEmu n f).mbx = s.mbx := rfl
@[simp] theorem State.modEmu_ringSeq (n : EmuId) (f : Emu → Emu) : (s.modEmu n f).ringSeq = s.ringSeq := rfl
@[simp] theorem State.modEmu_blocks (n : EmuId) (f : Emu → Emu) : (s.modEmu n f).blocks = s.blocks := rfl
@[simp] theorem State.modEmu_fn (n : EmuId) (f : Emu → Emu) : (s.modEmu n f).fn = s.fn := rfl
@[simp] theorem State.modEmu_nodeP (n : EmuId) (f : Emu → Emu) : (s.modEmu n f).nodeP = s.nodeP := rfl
@[simp] theorem State.modEmu_bankP (n : EmuId) (f : Emu → Emu) : (s.modEmu n f).bankP = s.bankP := rfl
@[simp] theorem State.modEmu_proofs (n : EmuId) (f : Emu → Emu) : (s.modEmu n f).proofs = s.proofs := rfl
@[simp] theorem State.modEmu_commits (n : EmuId) (f : Emu → Emu) : (s.modEmu n f).commits = s.commits := rfl
@[simp] theorem State.modEmu_axes (n : EmuId) (f : Emu → Emu) : (s.modEmu n f).axes = s.axes := rfl
@[simp] theorem State.modEmu_banks (n : EmuId) (f : Emu → Emu) : (s.modEmu n f).banks = s.banks := rfl
@[simp] theorem State.modEmu_batchTick (n : EmuId) (f : Emu → Emu) : (s.modEmu n f).batchTick = s.batchTick := rfl
@[simp] theorem State.modEmu_bdrop (n : EmuId) (f : Emu → Emu) : (s.modEmu n f).bdrop = s.bdrop := rfl
@[simp] theorem State.modEmu_auxq (n : EmuId) (f : Emu → Emu) : (s.modEmu n f).auxq = s.auxq := rfl
@[simp] theorem State.modEmu_auxs (n : EmuId) (f : Emu → Emu) : (s.modEmu n f).auxs = s.auxs := rfl
@[simp] theorem State.modEmu_entry (n : EmuId) (f : Emu → Emu) : (s.modEmu n f).entry = s.entry := rfl
@[simp] theorem State.modEmu_keep (n : EmuId) (f : Emu → Emu) : (s.modEmu n f).keep = s.keep := rfl
@[simp] theorem State.modEmu_kiln (n : EmuId) (f : Emu → Emu) : (s.modEmu n f).kiln = s.kiln := rfl
@[simp] theorem State.modEmu_tick (n : EmuId) (f : Emu → Emu) : (s.modEmu n f).tick = s.tick := rfl
@[simp] theorem State.modEmu_units (n : EmuId) (f : Emu → Emu) : (s.modEmu n f).units = s.units := rfl
@[simp] theorem State.modEmu_elapsed (n : EmuId) (f : Emu → Emu) : (s.modEmu n f).elapsed = s.elapsed := rfl
@[simp] theorem State.modEmu_edgeT (n : EmuId) (f : Emu → Emu) : (s.modEmu n f).edgeT = s.edgeT := rfl
@[simp] theorem State.modEmu_clk (n : EmuId) (f : Emu → Emu) : (s.modEmu n f).clk = s.clk := rfl
@[simp] theorem State.modEmu_groupSeq (n : EmuId) (f : Emu → Emu) : (s.modEmu n f).groupSeq = s.groupSeq := rfl
@[simp] theorem State.modEmu_opSeq (n : EmuId) (f : Emu → Emu) : (s.modEmu n f).opSeq = s.opSeq := rfl
@[simp] theorem State.modEmu_boot (n : EmuId) (f : Emu → Emu) : (s.modEmu n f).boot = s.boot := rfl
@[simp] theorem State.modEmu_haltC4 (n : EmuId) (f : Emu → Emu) : (s.modEmu n f).haltC4 = s.haltC4 := rfl
@[simp] theorem State.modEmu_links (n : EmuId) (f : Emu → Emu) : (s.modEmu n f).links = s.links := rfl
@[simp] theorem State.modEmu_powered (n : EmuId) (f : Emu → Emu) : (s.modEmu n f).powered = s.powered := rfl
@[simp] theorem State.modEmu_refOk (n : EmuId) (f : Emu → Emu) : (s.modEmu n f).refOk = s.refOk := rfl
@[simp] theorem State.modEmu_nstopLow (n : EmuId) (f : Emu → Emu) : (s.modEmu n f).nstopLow = s.nstopLow := rfl
@[simp] theorem State.modEmu_nfltLow (n : EmuId) (f : Emu → Emu) : (s.modEmu n f).nfltLow = s.nfltLow := rfl
@[simp] theorem State.modEmu_enPins (n : EmuId) (f : Emu → Emu) : (s.modEmu n f).enPins = s.enPins := rfl
@[simp] theorem State.modEmu_fbs (n : EmuId) (f : Emu → Emu) : (s.modEmu n f).fbs = s.fbs := rfl
@[simp] theorem State.modEmu_mem (n : EmuId) (f : Emu → Emu) : (s.modEmu n f).mem = s.mem := rfl
@[simp] theorem State.modEmu_nv (n : EmuId) (f : Emu → Emu) : (s.modEmu n f).nv = s.nv := rfl
@[simp] theorem State.modEmu_pair (n : EmuId) (f : Emu → Emu) : (s.modEmu n f).pair = s.pair := rfl
@[simp] theorem State.modEmu_perf (n : EmuId) (f : Emu → Emu) : (s.modEmu n f).perf = s.perf := rfl
@[simp] theorem State.modEmu_gpio (n : EmuId) (f : Emu → Emu) : (s.modEmu n f).gpio = s.gpio := rfl
@[simp] theorem State.modEmu_free (n : EmuId) (f : Emu → Emu) : (s.modEmu n f).free = s.free := rfl

/-! ## `State.modMem` -/

@[simp] theorem State.modMem_part (f : MemPort → MemPort) : (s.modMem f).part = s.part := rfl
@[simp] theorem State.modMem_isN1 (f : MemPort → MemPort) : (s.modMem f).isN1 = s.isN1 := rfl
@[simp] theorem State.modMem_pending (f : MemPort → MemPort) : (s.modMem f).pending = s.pending := rfl
@[simp] theorem State.modMem_link (f : MemPort → MemPort) : (s.modMem f).link = s.link := rfl
@[simp] theorem State.modMem_mbx (f : MemPort → MemPort) : (s.modMem f).mbx = s.mbx := rfl
@[simp] theorem State.modMem_ringSeq (f : MemPort → MemPort) : (s.modMem f).ringSeq = s.ringSeq := rfl
@[simp] theorem State.modMem_blocks (f : MemPort → MemPort) : (s.modMem f).blocks = s.blocks := rfl
@[simp] theorem State.modMem_fn (f : MemPort → MemPort) : (s.modMem f).fn = s.fn := rfl
@[simp] theorem State.modMem_nodeP (f : MemPort → MemPort) : (s.modMem f).nodeP = s.nodeP := rfl
@[simp] theorem State.modMem_bankP (f : MemPort → MemPort) : (s.modMem f).bankP = s.bankP := rfl
@[simp] theorem State.modMem_proofs (f : MemPort → MemPort) : (s.modMem f).proofs = s.proofs := rfl
@[simp] theorem State.modMem_commits (f : MemPort → MemPort) : (s.modMem f).commits = s.commits := rfl
@[simp] theorem State.modMem_axes (f : MemPort → MemPort) : (s.modMem f).axes = s.axes := rfl
@[simp] theorem State.modMem_banks (f : MemPort → MemPort) : (s.modMem f).banks = s.banks := rfl
@[simp] theorem State.modMem_batchTick (f : MemPort → MemPort) : (s.modMem f).batchTick = s.batchTick := rfl
@[simp] theorem State.modMem_bdrop (f : MemPort → MemPort) : (s.modMem f).bdrop = s.bdrop := rfl
@[simp] theorem State.modMem_auxq (f : MemPort → MemPort) : (s.modMem f).auxq = s.auxq := rfl
@[simp] theorem State.modMem_auxs (f : MemPort → MemPort) : (s.modMem f).auxs = s.auxs := rfl
@[simp] theorem State.modMem_entry (f : MemPort → MemPort) : (s.modMem f).entry = s.entry := rfl
@[simp] theorem State.modMem_keep (f : MemPort → MemPort) : (s.modMem f).keep = s.keep := rfl
@[simp] theorem State.modMem_kiln (f : MemPort → MemPort) : (s.modMem f).kiln = s.kiln := rfl
@[simp] theorem State.modMem_tick (f : MemPort → MemPort) : (s.modMem f).tick = s.tick := rfl
@[simp] theorem State.modMem_units (f : MemPort → MemPort) : (s.modMem f).units = s.units := rfl
@[simp] theorem State.modMem_elapsed (f : MemPort → MemPort) : (s.modMem f).elapsed = s.elapsed := rfl
@[simp] theorem State.modMem_edgeT (f : MemPort → MemPort) : (s.modMem f).edgeT = s.edgeT := rfl
@[simp] theorem State.modMem_clk (f : MemPort → MemPort) : (s.modMem f).clk = s.clk := rfl
@[simp] theorem State.modMem_groupSeq (f : MemPort → MemPort) : (s.modMem f).groupSeq = s.groupSeq := rfl
@[simp] theorem State.modMem_opSeq (f : MemPort → MemPort) : (s.modMem f).opSeq = s.opSeq := rfl
@[simp] theorem State.modMem_boot (f : MemPort → MemPort) : (s.modMem f).boot = s.boot := rfl
@[simp] theorem State.modMem_haltC4 (f : MemPort → MemPort) : (s.modMem f).haltC4 = s.haltC4 := rfl
@[simp] theorem State.modMem_links (f : MemPort → MemPort) : (s.modMem f).links = s.links := rfl
@[simp] theorem State.modMem_powered (f : MemPort → MemPort) : (s.modMem f).powered = s.powered := rfl
@[simp] theorem State.modMem_refOk (f : MemPort → MemPort) : (s.modMem f).refOk = s.refOk := rfl
@[simp] theorem State.modMem_nstopLow (f : MemPort → MemPort) : (s.modMem f).nstopLow = s.nstopLow := rfl
@[simp] theorem State.modMem_nfltLow (f : MemPort → MemPort) : (s.modMem f).nfltLow = s.nfltLow := rfl
@[simp] theorem State.modMem_enPins (f : MemPort → MemPort) : (s.modMem f).enPins = s.enPins := rfl
@[simp] theorem State.modMem_fbs (f : MemPort → MemPort) : (s.modMem f).fbs = s.fbs := rfl
@[simp] theorem State.modMem_emus (f : MemPort → MemPort) : (s.modMem f).emus = s.emus := rfl
@[simp] theorem State.modMem_nv (f : MemPort → MemPort) : (s.modMem f).nv = s.nv := rfl
@[simp] theorem State.modMem_pair (f : MemPort → MemPort) : (s.modMem f).pair = s.pair := rfl
@[simp] theorem State.modMem_perf (f : MemPort → MemPort) : (s.modMem f).perf = s.perf := rfl
@[simp] theorem State.modMem_gpio (f : MemPort → MemPort) : (s.modMem f).gpio = s.gpio := rfl
@[simp] theorem State.modMem_free (f : MemPort → MemPort) : (s.modMem f).free = s.free := rfl

/-! ## `State.modPair` -/

@[simp] theorem State.modPair_part (f : Pair → Pair) : (s.modPair f).part = s.part := rfl
@[simp] theorem State.modPair_isN1 (f : Pair → Pair) : (s.modPair f).isN1 = s.isN1 := rfl
@[simp] theorem State.modPair_pending (f : Pair → Pair) : (s.modPair f).pending = s.pending := rfl
@[simp] theorem State.modPair_link (f : Pair → Pair) : (s.modPair f).link = s.link := rfl
@[simp] theorem State.modPair_mbx (f : Pair → Pair) : (s.modPair f).mbx = s.mbx := rfl
@[simp] theorem State.modPair_ringSeq (f : Pair → Pair) : (s.modPair f).ringSeq = s.ringSeq := rfl
@[simp] theorem State.modPair_blocks (f : Pair → Pair) : (s.modPair f).blocks = s.blocks := rfl
@[simp] theorem State.modPair_fn (f : Pair → Pair) : (s.modPair f).fn = s.fn := rfl
@[simp] theorem State.modPair_nodeP (f : Pair → Pair) : (s.modPair f).nodeP = s.nodeP := rfl
@[simp] theorem State.modPair_bankP (f : Pair → Pair) : (s.modPair f).bankP = s.bankP := rfl
@[simp] theorem State.modPair_proofs (f : Pair → Pair) : (s.modPair f).proofs = s.proofs := rfl
@[simp] theorem State.modPair_commits (f : Pair → Pair) : (s.modPair f).commits = s.commits := rfl
@[simp] theorem State.modPair_axes (f : Pair → Pair) : (s.modPair f).axes = s.axes := rfl
@[simp] theorem State.modPair_banks (f : Pair → Pair) : (s.modPair f).banks = s.banks := rfl
@[simp] theorem State.modPair_batchTick (f : Pair → Pair) : (s.modPair f).batchTick = s.batchTick := rfl
@[simp] theorem State.modPair_bdrop (f : Pair → Pair) : (s.modPair f).bdrop = s.bdrop := rfl
@[simp] theorem State.modPair_auxq (f : Pair → Pair) : (s.modPair f).auxq = s.auxq := rfl
@[simp] theorem State.modPair_auxs (f : Pair → Pair) : (s.modPair f).auxs = s.auxs := rfl
@[simp] theorem State.modPair_entry (f : Pair → Pair) : (s.modPair f).entry = s.entry := rfl
@[simp] theorem State.modPair_keep (f : Pair → Pair) : (s.modPair f).keep = s.keep := rfl
@[simp] theorem State.modPair_kiln (f : Pair → Pair) : (s.modPair f).kiln = s.kiln := rfl
@[simp] theorem State.modPair_tick (f : Pair → Pair) : (s.modPair f).tick = s.tick := rfl
@[simp] theorem State.modPair_units (f : Pair → Pair) : (s.modPair f).units = s.units := rfl
@[simp] theorem State.modPair_elapsed (f : Pair → Pair) : (s.modPair f).elapsed = s.elapsed := rfl
@[simp] theorem State.modPair_edgeT (f : Pair → Pair) : (s.modPair f).edgeT = s.edgeT := rfl
@[simp] theorem State.modPair_clk (f : Pair → Pair) : (s.modPair f).clk = s.clk := rfl
@[simp] theorem State.modPair_groupSeq (f : Pair → Pair) : (s.modPair f).groupSeq = s.groupSeq := rfl
@[simp] theorem State.modPair_opSeq (f : Pair → Pair) : (s.modPair f).opSeq = s.opSeq := rfl
@[simp] theorem State.modPair_boot (f : Pair → Pair) : (s.modPair f).boot = s.boot := rfl
@[simp] theorem State.modPair_haltC4 (f : Pair → Pair) : (s.modPair f).haltC4 = s.haltC4 := rfl
@[simp] theorem State.modPair_links (f : Pair → Pair) : (s.modPair f).links = s.links := rfl
@[simp] theorem State.modPair_powered (f : Pair → Pair) : (s.modPair f).powered = s.powered := rfl
@[simp] theorem State.modPair_refOk (f : Pair → Pair) : (s.modPair f).refOk = s.refOk := rfl
@[simp] theorem State.modPair_nstopLow (f : Pair → Pair) : (s.modPair f).nstopLow = s.nstopLow := rfl
@[simp] theorem State.modPair_nfltLow (f : Pair → Pair) : (s.modPair f).nfltLow = s.nfltLow := rfl
@[simp] theorem State.modPair_enPins (f : Pair → Pair) : (s.modPair f).enPins = s.enPins := rfl
@[simp] theorem State.modPair_fbs (f : Pair → Pair) : (s.modPair f).fbs = s.fbs := rfl
@[simp] theorem State.modPair_emus (f : Pair → Pair) : (s.modPair f).emus = s.emus := rfl
@[simp] theorem State.modPair_mem (f : Pair → Pair) : (s.modPair f).mem = s.mem := rfl
@[simp] theorem State.modPair_nv (f : Pair → Pair) : (s.modPair f).nv = s.nv := rfl
@[simp] theorem State.modPair_perf (f : Pair → Pair) : (s.modPair f).perf = s.perf := rfl
@[simp] theorem State.modPair_gpio (f : Pair → Pair) : (s.modPair f).gpio = s.gpio := rfl
@[simp] theorem State.modPair_free (f : Pair → Pair) : (s.modPair f).free = s.free := rfl

/-! ## `State.modNv` -/

@[simp] theorem State.modNv_part (f : Nv → Nv) : (s.modNv f).part = s.part := rfl
@[simp] theorem State.modNv_isN1 (f : Nv → Nv) : (s.modNv f).isN1 = s.isN1 := rfl
@[simp] theorem State.modNv_pending (f : Nv → Nv) : (s.modNv f).pending = s.pending := rfl
@[simp] theorem State.modNv_link (f : Nv → Nv) : (s.modNv f).link = s.link := rfl
@[simp] theorem State.modNv_mbx (f : Nv → Nv) : (s.modNv f).mbx = s.mbx := rfl
@[simp] theorem State.modNv_ringSeq (f : Nv → Nv) : (s.modNv f).ringSeq = s.ringSeq := rfl
@[simp] theorem State.modNv_blocks (f : Nv → Nv) : (s.modNv f).blocks = s.blocks := rfl
@[simp] theorem State.modNv_fn (f : Nv → Nv) : (s.modNv f).fn = s.fn := rfl
@[simp] theorem State.modNv_nodeP (f : Nv → Nv) : (s.modNv f).nodeP = s.nodeP := rfl
@[simp] theorem State.modNv_bankP (f : Nv → Nv) : (s.modNv f).bankP = s.bankP := rfl
@[simp] theorem State.modNv_proofs (f : Nv → Nv) : (s.modNv f).proofs = s.proofs := rfl
@[simp] theorem State.modNv_commits (f : Nv → Nv) : (s.modNv f).commits = s.commits := rfl
@[simp] theorem State.modNv_axes (f : Nv → Nv) : (s.modNv f).axes = s.axes := rfl
@[simp] theorem State.modNv_banks (f : Nv → Nv) : (s.modNv f).banks = s.banks := rfl
@[simp] theorem State.modNv_batchTick (f : Nv → Nv) : (s.modNv f).batchTick = s.batchTick := rfl
@[simp] theorem State.modNv_bdrop (f : Nv → Nv) : (s.modNv f).bdrop = s.bdrop := rfl
@[simp] theorem State.modNv_auxq (f : Nv → Nv) : (s.modNv f).auxq = s.auxq := rfl
@[simp] theorem State.modNv_auxs (f : Nv → Nv) : (s.modNv f).auxs = s.auxs := rfl
@[simp] theorem State.modNv_entry (f : Nv → Nv) : (s.modNv f).entry = s.entry := rfl
@[simp] theorem State.modNv_keep (f : Nv → Nv) : (s.modNv f).keep = s.keep := rfl
@[simp] theorem State.modNv_kiln (f : Nv → Nv) : (s.modNv f).kiln = s.kiln := rfl
@[simp] theorem State.modNv_tick (f : Nv → Nv) : (s.modNv f).tick = s.tick := rfl
@[simp] theorem State.modNv_units (f : Nv → Nv) : (s.modNv f).units = s.units := rfl
@[simp] theorem State.modNv_elapsed (f : Nv → Nv) : (s.modNv f).elapsed = s.elapsed := rfl
@[simp] theorem State.modNv_edgeT (f : Nv → Nv) : (s.modNv f).edgeT = s.edgeT := rfl
@[simp] theorem State.modNv_clk (f : Nv → Nv) : (s.modNv f).clk = s.clk := rfl
@[simp] theorem State.modNv_groupSeq (f : Nv → Nv) : (s.modNv f).groupSeq = s.groupSeq := rfl
@[simp] theorem State.modNv_opSeq (f : Nv → Nv) : (s.modNv f).opSeq = s.opSeq := rfl
@[simp] theorem State.modNv_boot (f : Nv → Nv) : (s.modNv f).boot = s.boot := rfl
@[simp] theorem State.modNv_haltC4 (f : Nv → Nv) : (s.modNv f).haltC4 = s.haltC4 := rfl
@[simp] theorem State.modNv_links (f : Nv → Nv) : (s.modNv f).links = s.links := rfl
@[simp] theorem State.modNv_powered (f : Nv → Nv) : (s.modNv f).powered = s.powered := rfl
@[simp] theorem State.modNv_refOk (f : Nv → Nv) : (s.modNv f).refOk = s.refOk := rfl
@[simp] theorem State.modNv_nstopLow (f : Nv → Nv) : (s.modNv f).nstopLow = s.nstopLow := rfl
@[simp] theorem State.modNv_nfltLow (f : Nv → Nv) : (s.modNv f).nfltLow = s.nfltLow := rfl
@[simp] theorem State.modNv_enPins (f : Nv → Nv) : (s.modNv f).enPins = s.enPins := rfl
@[simp] theorem State.modNv_fbs (f : Nv → Nv) : (s.modNv f).fbs = s.fbs := rfl
@[simp] theorem State.modNv_emus (f : Nv → Nv) : (s.modNv f).emus = s.emus := rfl
@[simp] theorem State.modNv_mem (f : Nv → Nv) : (s.modNv f).mem = s.mem := rfl
@[simp] theorem State.modNv_pair (f : Nv → Nv) : (s.modNv f).pair = s.pair := rfl
@[simp] theorem State.modNv_perf (f : Nv → Nv) : (s.modNv f).perf = s.perf := rfl
@[simp] theorem State.modNv_gpio (f : Nv → Nv) : (s.modNv f).gpio = s.gpio := rfl
@[simp] theorem State.modNv_free (f : Nv → Nv) : (s.modNv f).free = s.free := rfl

/-! ## `State.modEntry` -/

@[simp] theorem State.modEntry_part (f : Entry → Entry) : (s.modEntry f).part = s.part := rfl
@[simp] theorem State.modEntry_isN1 (f : Entry → Entry) : (s.modEntry f).isN1 = s.isN1 := rfl
@[simp] theorem State.modEntry_pending (f : Entry → Entry) : (s.modEntry f).pending = s.pending := rfl
@[simp] theorem State.modEntry_link (f : Entry → Entry) : (s.modEntry f).link = s.link := rfl
@[simp] theorem State.modEntry_mbx (f : Entry → Entry) : (s.modEntry f).mbx = s.mbx := rfl
@[simp] theorem State.modEntry_ringSeq (f : Entry → Entry) : (s.modEntry f).ringSeq = s.ringSeq := rfl
@[simp] theorem State.modEntry_blocks (f : Entry → Entry) : (s.modEntry f).blocks = s.blocks := rfl
@[simp] theorem State.modEntry_fn (f : Entry → Entry) : (s.modEntry f).fn = s.fn := rfl
@[simp] theorem State.modEntry_nodeP (f : Entry → Entry) : (s.modEntry f).nodeP = s.nodeP := rfl
@[simp] theorem State.modEntry_bankP (f : Entry → Entry) : (s.modEntry f).bankP = s.bankP := rfl
@[simp] theorem State.modEntry_proofs (f : Entry → Entry) : (s.modEntry f).proofs = s.proofs := rfl
@[simp] theorem State.modEntry_commits (f : Entry → Entry) : (s.modEntry f).commits = s.commits := rfl
@[simp] theorem State.modEntry_axes (f : Entry → Entry) : (s.modEntry f).axes = s.axes := rfl
@[simp] theorem State.modEntry_banks (f : Entry → Entry) : (s.modEntry f).banks = s.banks := rfl
@[simp] theorem State.modEntry_batchTick (f : Entry → Entry) : (s.modEntry f).batchTick = s.batchTick := rfl
@[simp] theorem State.modEntry_bdrop (f : Entry → Entry) : (s.modEntry f).bdrop = s.bdrop := rfl
@[simp] theorem State.modEntry_auxq (f : Entry → Entry) : (s.modEntry f).auxq = s.auxq := rfl
@[simp] theorem State.modEntry_auxs (f : Entry → Entry) : (s.modEntry f).auxs = s.auxs := rfl
@[simp] theorem State.modEntry_keep (f : Entry → Entry) : (s.modEntry f).keep = s.keep := rfl
@[simp] theorem State.modEntry_kiln (f : Entry → Entry) : (s.modEntry f).kiln = s.kiln := rfl
@[simp] theorem State.modEntry_tick (f : Entry → Entry) : (s.modEntry f).tick = s.tick := rfl
@[simp] theorem State.modEntry_units (f : Entry → Entry) : (s.modEntry f).units = s.units := rfl
@[simp] theorem State.modEntry_elapsed (f : Entry → Entry) : (s.modEntry f).elapsed = s.elapsed := rfl
@[simp] theorem State.modEntry_edgeT (f : Entry → Entry) : (s.modEntry f).edgeT = s.edgeT := rfl
@[simp] theorem State.modEntry_clk (f : Entry → Entry) : (s.modEntry f).clk = s.clk := rfl
@[simp] theorem State.modEntry_groupSeq (f : Entry → Entry) : (s.modEntry f).groupSeq = s.groupSeq := rfl
@[simp] theorem State.modEntry_opSeq (f : Entry → Entry) : (s.modEntry f).opSeq = s.opSeq := rfl
@[simp] theorem State.modEntry_boot (f : Entry → Entry) : (s.modEntry f).boot = s.boot := rfl
@[simp] theorem State.modEntry_haltC4 (f : Entry → Entry) : (s.modEntry f).haltC4 = s.haltC4 := rfl
@[simp] theorem State.modEntry_links (f : Entry → Entry) : (s.modEntry f).links = s.links := rfl
@[simp] theorem State.modEntry_powered (f : Entry → Entry) : (s.modEntry f).powered = s.powered := rfl
@[simp] theorem State.modEntry_refOk (f : Entry → Entry) : (s.modEntry f).refOk = s.refOk := rfl
@[simp] theorem State.modEntry_nstopLow (f : Entry → Entry) : (s.modEntry f).nstopLow = s.nstopLow := rfl
@[simp] theorem State.modEntry_nfltLow (f : Entry → Entry) : (s.modEntry f).nfltLow = s.nfltLow := rfl
@[simp] theorem State.modEntry_enPins (f : Entry → Entry) : (s.modEntry f).enPins = s.enPins := rfl
@[simp] theorem State.modEntry_fbs (f : Entry → Entry) : (s.modEntry f).fbs = s.fbs := rfl
@[simp] theorem State.modEntry_emus (f : Entry → Entry) : (s.modEntry f).emus = s.emus := rfl
@[simp] theorem State.modEntry_mem (f : Entry → Entry) : (s.modEntry f).mem = s.mem := rfl
@[simp] theorem State.modEntry_nv (f : Entry → Entry) : (s.modEntry f).nv = s.nv := rfl
@[simp] theorem State.modEntry_pair (f : Entry → Entry) : (s.modEntry f).pair = s.pair := rfl
@[simp] theorem State.modEntry_perf (f : Entry → Entry) : (s.modEntry f).perf = s.perf := rfl
@[simp] theorem State.modEntry_gpio (f : Entry → Entry) : (s.modEntry f).gpio = s.gpio := rfl
@[simp] theorem State.modEntry_free (f : Entry → Entry) : (s.modEntry f).free = s.free := rfl

/-- What `modAxis` writes. -/
@[simp] theorem State.modAxis_same (n : AxisId) (f : Axis → Axis) : (s.modAxis n f).axes[n] = f s.axes[n] := by
  simp [State.modAxis]

/-- What `modAxis` leaves alone. -/
theorem State.modAxis_other {n k : AxisId} (f : Axis → Axis) (h : k ≠ n) : (s.modAxis n f).axes[k] = s.axes[k] := by
  have : ¬ n.val = k.val := fun e => h (Fin.ext e.symm)
  simp [State.modAxis, this]

/-- What `modBank` writes. -/
@[simp] theorem State.modBank_same (n : BankId) (f : Bank → Bank) : (s.modBank n f).banks[n] = f s.banks[n] := by
  simp [State.modBank]

/-- What `modBank` leaves alone. -/
theorem State.modBank_other {n k : BankId} (f : Bank → Bank) (h : k ≠ n) : (s.modBank n f).banks[k] = s.banks[k] := by
  have : ¬ n.val = k.val := fun e => h (Fin.ext e.symm)
  simp [State.modBank, this]

/-- What `modMb` writes. -/
@[simp] theorem State.modMb_same (n : MbId) (f : Mailbox → Mailbox) : (s.modMb n f).mbx[n] = f s.mbx[n] := by
  simp [State.modMb]

/-- What `modMb` leaves alone. -/
theorem State.modMb_other {n k : MbId} (f : Mailbox → Mailbox) (h : k ≠ n) : (s.modMb n f).mbx[k] = s.mbx[k] := by
  have : ¬ n.val = k.val := fun e => h (Fin.ext e.symm)
  simp [State.modMb, this]

/-- What `modFb` writes. -/
@[simp] theorem State.modFb_same (n : FbId) (f : FbChan → FbChan) : (s.modFb n f).fbs[n] = f s.fbs[n] := by
  simp [State.modFb]

/-- What `modFb` leaves alone. -/
theorem State.modFb_other {n k : FbId} (f : FbChan → FbChan) (h : k ≠ n) : (s.modFb n f).fbs[k] = s.fbs[k] := by
  have : ¬ n.val = k.val := fun e => h (Fin.ext e.symm)
  simp [State.modFb, this]

/-- What `modEmu` writes. -/
@[simp] theorem State.modEmu_same (n : EmuId) (f : Emu → Emu) : (s.modEmu n f).emus[n] = f s.emus[n] := by
  simp [State.modEmu]

/-- What `modEmu` leaves alone. -/
theorem State.modEmu_other {n k : EmuId} (f : Emu → Emu) (h : k ≠ n) : (s.modEmu n f).emus[k] = s.emus[k] := by
  have : ¬ n.val = k.val := fun e => h (Fin.ext e.symm)
  simp [State.modEmu, this]

/-- What `modBlock` writes. -/
@[simp] theorem State.modBlock_same (i : BlockId) (f : FBlock → FBlock) : (s.modBlock i f).block i = f (s.block i) := by
  simp [State.modBlock, State.block]

/-- What `modBlock` leaves alone: every block at another place. -/
theorem State.modBlock_other {i j : BlockId} (f : FBlock → FBlock) (h : j.idx ≠ i.idx) :
    (s.modBlock i f).block j = s.block j := by
  have : ¬ i.idx.val = j.idx.val := fun e => h (Fin.ext e.symm)
  simp [State.modBlock, State.block, this]

@[simp] theorem State.modMem_mem (f : MemPort → MemPort) : (s.modMem f).mem = f s.mem := rfl
@[simp] theorem State.modPair_pair (f : Pair → Pair) : (s.modPair f).pair = f s.pair := rfl
@[simp] theorem State.modNv_nv (f : Nv → Nv) : (s.modNv f).nv = f s.nv := rfl
@[simp] theorem State.modEntry_entry (f : Entry → Entry) : (s.modEntry f).entry = f s.entry := rfl

/-! ## Repetition -/

/-- What every pass of a repetition keeps, the repetition keeps. -/
theorem State.each_keeps {α : Type} (P : State → Prop) (f : α → State → State) (hf : ∀ a t, P t → P (f a t)) :
    ∀ (l : List α) (t : State), P t → P (t.each l f)
  | [], _, h => h
  | a :: l, t, h => State.each_keeps P f hf l (f a t) (hf a t h)

/-- A projection that no pass changes. -/
theorem State.each_proj {α β : Type} (p : State → β) (f : α → State → State) (hf : ∀ a t, p (f a t) = p t) (l : List α) :
    p (s.each l f) = p s :=
  State.each_keeps (fun t => p t = p s) f (fun a t h => (hf a t).trans h) l s rfl

end Sys2Proof.Machine
end

