-- ==== Sys2Proof/Laws/Flags.lean ====
section
/-! SUPPORT. What completing a command and raising a fault can do (16_faults.md R468 to R477): the pieces of the state
that they touch, and the status bit that a raise leaves behind. -/
namespace Sys2Proof.Machine

/-- t differs from s in nothing but mailboxes and byte counters. -/
def State.Told (s t : State) : Prop := t = { s with mbx := t.mbx, perf := t.perf }

/-- t differs from s in nothing but what a raise reaches. -/
def State.Raised (s t : State) : Prop :=
  t = { s with blocks := t.blocks, fn := t.fn, mbx := t.mbx, perf := t.perf, commits := t.commits, axes := t.axes,
               banks := t.banks, keep := t.keep, boot := t.boot, haltC4 := t.haltC4, mem := t.mem, nv := t.nv }

theorem State.Told.refl (s : State) : s.Told s := rfl

theorem State.Told.trans {s t u : State} (h : s.Told t) (k : t.Told u) : s.Told u := by
  unfold State.Told at *
  rw [h] at k
  exact k

theorem State.Raised.refl (s : State) : s.Raised s := rfl

theorem State.Raised.trans {s t u : State} (h : s.Raised t) (k : t.Raised u) : s.Raised u := by
  unfold State.Raised at *
  rw [h] at k
  exact k

theorem State.Told.raised {s t : State} (h : s.Told t) : s.Raised t := by
  unfold State.Told at h
  rw [h]
  rfl

/-- Counting bytes touches the counters alone. -/
theorem State.countBytes_told (port n : Nat) (s : State) : s.Told (s.countBytes port n) := by
  unfold State.countBytes
  split <;> rfl

@[simp] theorem State.countBytes_mbx (port n : Nat) (s : State) : (s.countBytes port n).mbx = s.mbx := by
  unfold State.countBytes
  split <;> rfl

/-- A completion touches mailboxes and counters alone. -/
theorem State.complete_told (m : MbId) (st : BitVec 2) (ws : List Word) (s : State) : s.Told (s.complete m st ws) := by
  unfold State.complete State.countBytes
  split
  · rfl
  · split
    · rfl
    · split <;> rfl

theorem State.done_told (m : MbId) (ws : List Word) (s : State) : s.Told (s.done m ws) := s.complete_told m 2 ws

/-- An error completion touches mailboxes and counters alone. -/
theorem State.err_told (m : MbId) (e : ECode) (d : Nat) (s : State) : s.Told (s.err m e d) :=
  s.complete_told m 3 _

/-- A completion is one of three: now, kept until the processor runs again, or none where the command has ended (R114,
R120). -/
theorem State.complete_cases (m : MbId) (st : BitVec 2) (ws : List Word) (s : State) :
    (s.endsNow m = true ∧
      s.complete m st ws = (s.modMb m (Mailbox.finish st ws)).countBytes 2 (4 * (1 + ws.length))) ∨
    (s.endsNow m = false ∧ s.mbx[m].phase ≠ .idle ∧
      s.complete m st ws = s.modMb m fun x => { x with phase := .ended st ws }) ∨
    (s.endsNow m = false ∧ s.mbx[m].phase = .idle ∧ s.complete m st ws = s) := by
  unfold State.complete State.endsNow
  by_cases h : s.mbx[m].phase = .idle
  · rw [if_pos h]
    exact .inr (.inr ⟨by rw [decide_eq_false (not_not_intro h), Bool.false_and], h, rfl⟩)
  · rw [if_neg h, decide_eq_true h, Bool.true_and]
    cases s.debugHalted && s.mbx[m].taken
    · exact .inl ⟨rfl, rfl⟩
    · exact .inr (.inl ⟨rfl, h, rfl⟩)

/-- A completion of a command that ends now: its response and state (R109, R114). -/
theorem State.complete_mbx {m : MbId} {s : State} (h : s.endsNow m = true) (st : BitVec 2) (ws : List Word) :
    (s.complete m st ws).mbx = (s.modMb m (Mailbox.finish st ws)).mbx := by
  rcases State.complete_cases m st ws s with e | e | e
  · rw [e.2, State.countBytes_mbx]
  · rw [e.1] at h; cases h
  · rw [e.1] at h; cases h

/-- A repetition of what a relation allows. -/
theorem State.each_raised {α : Type} (f : α → State → State) (hf : ∀ a (t : State), t.Raised (f a t)) (l : List α) (s : State) :
    s.Raised (s.each l f) :=
  State.each_keeps (fun t => s.Raised t) f (fun a t h => h.trans (hf a t)) l s (.refl s)

theorem State.each_told {α : Type} (f : α → State → State) (hf : ∀ a (t : State), t.Told (f a t)) (l : List α) (s : State) :
    s.Told (s.each l f) :=
  State.each_keeps (fun t => s.Told t) f (fun a t h => h.trans (hf a t)) l s (.refl s)

/-- A command that completes HALTED touches mailboxes and counters alone. -/
theorem State.haltCommand_told (m : MbId) (s : State) : s.Told (s.haltCommand m) := by
  exact State.err_told m .halted 0 s

theorem State.lockHalt_raised (s : State) : s.Raised s.lockHalt := rfl

theorem State.haltRuns_raised (s : State) : s.Raised s.haltRuns := rfl

/-- What a halt of class 4 touches (R477). -/
theorem State.class4Halt_raised (s : State) : s.Raised s.class4Halt :=
  s.lockHalt_raised.trans ((State.each_told _ State.haltCommand_told allMbs s.lockHalt).raised.trans
    (State.haltRuns_raised _))

/-- The reactions of a code touch the node's fault registers alone (R466). -/
theorem State.react_raised (i : BlockId) (c code : Nat) (s : State) : s.Raised (s.react i c code) := rfl

/-- What a raise without its safe-level requests touches (R469). -/
theorem State.raise1_raised (i : BlockId) (bit : Nat) (test : Bool) (s : State) : s.Raised (s.raise1 i bit test).1 := by
  unfold State.raise1
  split
  · exact .refl s
  · simp only
    split
    · rfl
    · simp only
      split
      · exact State.Raised.trans (by rfl) (State.class4Halt_raised _)
      · exact State.Raised.trans (by rfl) (State.react_raised _ _ _ _)

/-- What a safe-level request touches (R334). -/
theorem State.requestSoft_raised (b : BankId) (s : State) : s.Raised (s.requestSoft b) := by
  unfold State.requestSoft
  split
  · exact State.Raised.trans (by rfl) (State.raise1_raised _ _ _ _)
  · exact .refl s

/-- What a raise touches (R469). -/
theorem State.raise_raised (i : BlockId) (bit : Nat) (s : State) : s.Raised (s.raise i bit) := by
  unfold State.raise State.raiseT
  simp only
  split
  · exact (State.raise1_raised i bit false s).trans (State.each_raised _ State.requestSoft_raised _ _)
  · exact State.raise1_raised i bit false s

/-- What a conditional raise touches. -/
theorem State.raiseIf_raised (c : Bool) (i : BlockId) (bit : Nat) (s : State) : s.Raised (s.raiseIf c i bit) := by
  unfold State.raiseIf
  split
  · exact State.raise_raised i bit s
  · exact .refl s

/-! ## Status bits (R468, R469) -/

theorem State.statusBit_blocks {s t : State} (h : t.blocks = s.blocks) (i : BlockId) (b : Nat) :
    t.statusBit i b = s.statusBit i b := by
  unfold State.statusBit State.block
  rw [h]

/-- A change of a block that sets no bit to 0 clears none. -/
theorem State.modBlock_keeps {s : State} {i j : BlockId} {b : Nat} {f : FBlock → FBlock}
    (hf : (s.block i).status.getLsbD b = true → (f (s.block i)).status.getLsbD b = true) (h : s.statusBit j b = true) :
    (s.modBlock i f).statusBit j b = true := by
  unfold State.statusBit at *
  by_cases e : j.idx = i.idx
  · have e1 : (s.modBlock i f).block j = f (s.block i) := by
      simp [State.block, State.modBlock, e]
    have e2 : s.block j = s.block i := by simp [State.block, e]
    rw [e1]
    rw [e2] at h
    exact hf h
  · rw [State.modBlock_other s f e]
    exact h

theorem State.each_blocks {α : Type} (f : α → State → State) (hf : ∀ a (t : State), (f a t).blocks = t.blocks) (l : List α)
    (s : State) : (s.each l f).blocks = s.blocks := State.each_proj s (fun t => t.blocks) f hf l

theorem State.haltCommand_blocks (m : MbId) (s : State) : (s.haltCommand m).blocks = s.blocks := by
  have := State.haltCommand_told m s
  unfold State.Told at this
  rw [this]

theorem State.haltRuns_blocks (s : State) : s.haltRuns.blocks = s.blocks := rfl

theorem State.class4Halt_blocks (s : State) : s.class4Halt.blocks = s.blocks := by
  unfold State.class4Halt
  rw [State.haltRuns_blocks, State.each_blocks _ State.haltCommand_blocks]
  rfl

theorem State.react_blocks (i : BlockId) (c code : Nat) (s : State) : (s.react i c code).blocks = s.blocks := rfl

theorem bit_set (x : Word) (bit b : Nat) (h : x.getLsbD b = true ∨ (b = bit ∧ b < 32)) :
    (x ||| (1#32 <<< bit)).getLsbD b = true := by
  rw [BitVec.getLsbD_or, Bool.or_eq_true]
  rcases h with h | ⟨rfl, h⟩
  · exact Or.inl h
  · right; simp [h]

/-- A raise without its safe-level requests sets its status bit, enabled or not, and clears none (R468). -/
theorem State.raise1_status (i j : BlockId) (bit b : Nat) (test : Bool) (s : State)
    (h : s.statusBit j b = true ∨ (j = i ∧ b = bit ∧ b < 32 ∧ (classOf s.part i bit).isSome)) :
    (s.raise1 i bit test).1.statusBit j b = true := by
  have set (f : FBlock → FBlock)
      (hf : (f (s.block i)).status = (s.block i).status ||| (1#32 <<< bit)) : (s.modBlock i f).statusBit j b = true := by
    rcases h with h | ⟨rfl, rfl, h, _⟩
    · exact State.modBlock_keeps (fun hx => hf ▸ bit_set _ _ _ (Or.inl hx)) h
    · unfold State.statusBit
      rw [State.modBlock_same, hf]
      exact bit_set _ _ _ (Or.inr ⟨rfl, h⟩)
  unfold State.raise1
  split
  · rename_i hc
    rcases h with h | ⟨_, _, _, h⟩
    · exact h
    · rw [hc] at h; exact absurd h (by simp)
  · simp only
    split
    · exact set _ rfl
    · simp only
      split
      · rw [State.statusBit_blocks (State.class4Halt_blocks _)]
        exact set (fun _ => ((s.block i).raised _ bit).1) rfl
      · rw [State.statusBit_blocks (State.react_blocks _ _ _ _)]
        exact set (fun _ => ((s.block i).raised _ bit).1) rfl

/-- A safe-level request clears no status bit. -/
theorem State.requestSoft_status (c : BankId) (j : BlockId) (b : Nat) (s : State) (h : s.statusBit j b = true) :
    (s.requestSoft c).statusBit j b = true := by
  unfold State.requestSoft
  split
  · exact State.raise1_status _ _ _ _ _ _ (Or.inl h)
  · exact h

/-- A raise clears no status bit and sets its own (R468). -/
theorem State.raise_status (i j : BlockId) (bit b : Nat) (s : State)
    (h : s.statusBit j b = true ∨ (j = i ∧ b = bit ∧ b < 32 ∧ (classOf s.part i bit).isSome)) :
    (s.raise i bit).statusBit j b = true := by
  unfold State.raise State.raiseT
  simp only
  split
  · exact State.each_keeps (fun t => t.statusBit j b = true) _ (fun c t ht => State.requestSoft_status c j b t ht) _ _
      (State.raise1_status i j bit b false s h)
  · exact State.raise1_status i j bit b false s h

/-! ## What a raise leaves alone -/

theorem State.FaultFrame.refl (s : State) : s.FaultFrame s :=
  ⟨rfl, fun _ => rfl, fun _ => rfl, fun _ _ h => h⟩

theorem State.FaultFrame.trans {s t u : State} (h : s.FaultFrame t) (k : t.FaultFrame u) : s.FaultFrame u := by
  refine ⟨?_, fun n => ?_, fun b => ?_, fun j c x => k.2.2.2 j c (h.2.2.2 j c x)⟩
  · have k1 := k.1
    rw [h.1] at k1
    exact k1
  · have k1 := k.2.1 n
    rw [h.2.1 n] at k1
    exact k1
  · have k1 := k.2.2.1 b
    rw [h.2.2.1 b] at k1
    exact k1

/-- A change of a block that clears no status bit. -/
theorem State.modBlock_frame {s : State} {i : BlockId} {f : FBlock → FBlock}
    (hf : ∀ b, (s.block i).status.getLsbD b = true → (f (s.block i)).status.getLsbD b = true) :
    s.FaultFrame (s.modBlock i f) :=
  ⟨rfl, fun _ => rfl, fun _ => rfl, fun _ b h => State.modBlock_keeps (hf b) h⟩

theorem State.haltCommand_frame (m : MbId) (s : State) : s.FaultFrame (s.haltCommand m) := by
  unfold State.haltCommand State.err State.complete State.countBytes
  split
  · exact .refl s
  · split
    · exact ⟨rfl, fun _ => rfl, fun _ => rfl, fun _ _ h => h⟩
    · split
      · exact ⟨rfl, fun _ => rfl, fun _ => rfl, fun _ _ h => h⟩
      · exact ⟨rfl, fun _ => rfl, fun _ => rfl, fun _ _ h => h⟩

theorem State.haltRuns_axes (s : State) (n : AxisId) :
    s.haltRuns.axes[n] = { s.axes[n] with eng := { s.axes[n].eng with offReq := true } } := by
  simp [State.haltRuns]

theorem Nv.abandonStores_frame (v : Nv) :
    { v.abandonStores with swap := none } =
      { v with stores := v.abandonStores.stores, sets := v.abandonStores.sets, swap := none } := by
  unfold Nv.abandonStores
  split <;> rfl

theorem State.haltRuns_frame (s : State) : s.FaultFrame s.haltRuns := by
  refine ⟨?_, fun n => ?_, fun _ => rfl, fun _ _ h => h⟩
  · unfold State.haltRuns
    rw [Nv.abandonStores_frame]
  · rw [State.haltRuns_axes]

theorem State.class4Halt_frame (s : State) : s.FaultFrame s.class4Halt := by
  have h : s.FaultFrame s.lockHalt := ⟨rfl, fun _ => rfl, fun _ => rfl, fun _ _ h => h⟩
  have e : s.FaultFrame (s.lockHalt.each allMbs State.haltCommand) :=
    State.each_keeps (fun t => s.FaultFrame t) _ (fun m t ht => ht.trans (State.haltCommand_frame m t)) _ _ h
  exact e.trans (State.haltRuns_frame _)

/-- A frame over other fault registers. -/
theorem State.frame_fault {s t : State} (bs : Vector FBlock 236) (f : FaultNode)
    (h : { s with blocks := bs, fn := f }.FaultFrame t)
    (st : ∀ (j : BlockId) (k : Nat), s.statusBit j k = true → t.statusBit j k = true) : s.FaultFrame t :=
  ⟨h.1, h.2.1, h.2.2.1, st⟩

theorem State.raise1_frame (i : BlockId) (bit : Nat) (test : Bool) (s : State) :
    s.FaultFrame (s.raise1 i bit test).1 := by
  have st (j : BlockId) (b : Nat) (h : s.statusBit j b = true) : (s.raise1 i bit test).1.statusBit j b = true :=
    State.raise1_status i j bit b test s (Or.inl h)
  revert st
  unfold State.raise1
  split
  · exact fun _ => .refl s
  · simp only
    split
    · exact fun st => ⟨rfl, fun _ => rfl, fun _ => rfl, st⟩
    · simp only
      split
      · exact fun st => State.frame_fault _ _ (State.class4Halt_frame _) st
      · exact fun st => ⟨rfl, fun _ => rfl, fun _ => rfl, st⟩

theorem State.softReq_frame (b : BankId) (s : State) :
    s.FaultFrame (s.modBank b fun k => { k with softReq := true }) := by
  refine ⟨rfl, fun _ => rfl, fun c => ?_, fun _ _ h => h⟩
  by_cases e : c = b
  · subst e; simp [State.modBank]
  · rw [State.modBank_other s _ e]

theorem State.requestSoft_frame (b : BankId) (s : State) : s.FaultFrame (s.requestSoft b) := by
  unfold State.requestSoft
  split
  · refine State.FaultFrame.trans (State.softReq_frame b s) (State.raise1_frame _ _ _ _)
  · exact .refl s

/-- A raise changes what a raise may reach, and clears no status bit (R469 to R477). -/
theorem State.raiseT_frame (i : BlockId) (bit : Nat) (test : Bool) (s : State) : s.FaultFrame (s.raiseT i bit test).1 := by
  unfold State.raiseT
  simp only
  split
  · exact State.each_keeps (fun t => s.FaultFrame t) _ (fun b t ht => ht.trans (State.requestSoft_frame b t)) _ _
      (State.raise1_frame i bit test s)
  · exact State.raise1_frame i bit test s

theorem State.raise_frame (i : BlockId) (bit : Nat) (s : State) : s.FaultFrame (s.raise i bit) :=
  State.raiseT_frame i bit false s

theorem State.raiseIf_frame (c : Bool) (i : BlockId) (bit : Nat) (s : State) : s.FaultFrame (s.raiseIf c i bit) := by
  unfold State.raiseIf
  split
  · exact State.raise_frame i bit s
  · exact .refl s

/-- A raise of a source that the block has: its bit is set, and nothing else but what a raise may reach changes. -/
theorem State.raise_raisedAt (i : BlockId) (bit : Nat) (s : State) (hb : bit < 32)
    (hc : (classOf s.part i bit).isSome = true) : s.RaisedAt i bit (s.raise i bit) :=
  ⟨State.raise_status i i bit bit s (Or.inr ⟨rfl, rfl, hb, hc⟩), State.raise_frame i bit s⟩

/-- The sources of a block other than the node do not depend on the part. -/
theorem classOf_part (p q : Part) (i : BlockId) (bit : Nat) (h : i ≠ .node) : classOf p i bit = classOf q i bit := by
  cases i <;> first | exact absurd rfl h | rfl

end Sys2Proof.Machine
end

