-- ==== Sys2Proof/Laws/Mailbox.lean ====
section
/-! SUPPORT. What the mailbox engine does when a command executes (04_mailboxes_and_ordering.md R109 to R116, R155). -/
namespace Sys2Proof.Machine

theorem Mailbox.finish_phase (st : BitVec 2) (ws : List Word) (x : Mailbox) : (x.finish st ws).phase = .idle := rfl

/-- Completing a command leaves the other mailboxes alone. -/
theorem State.complete_other {m k : MbId} (st : BitVec 2) (ws : List Word) (s : State) (h : k ≠ m) :
    (s.complete m st ws).mbx[k] = s.mbx[k] := by
  have e : (s.complete m st ws).mbx = (s.modMb m (Mailbox.finish st ws)).mbx ∨
      (s.complete m st ws).mbx = (s.modMb m fun x => { x with phase := .ended st ws }).mbx ∨
      (s.complete m st ws).mbx = s.mbx := by
    rcases State.complete_cases m st ws s with e | e | e
    · exact .inl (by rw [e.2, State.countBytes_mbx])
    · exact .inr (.inl (by rw [e.2.2]))
    · exact .inr (.inr (by rw [e.2.2]))
  rcases e with e | e | e <;> rw [e]
  · exact State.modMb_other s _ h
  · exact State.modMb_other s _ h

/-- A command that ends now is idle, with its response (R109, R114). -/
theorem State.complete_self {m : MbId} {s : State} (h : s.endsNow m = true) (st : BitVec 2) (ws : List Word) :
    (s.complete m st ws).mbx[m] = s.mbx[m].finish st ws := by
  rw [State.complete_mbx h]
  exact State.modMb_same s _ _

/-- After a completion the command waits for nothing (R114, R120). -/
theorem State.complete_waits (m : MbId) (st : BitVec 2) (ws : List Word) (s : State) (w : Wait) :
    (s.complete m st ws).mbx[m].phase ≠ .waiting w := by
  rcases State.complete_cases m st ws s with e | e | e
  · rw [State.complete_self e.1]; simp [Mailbox.finish]
  · rw [e.2.2, State.modMb_same]; simp
  · rw [e.2.2, e.2.1]; simp

/-- A rung command ends at once (R120). -/
theorem State.endsNow_rung {s : State} {m : MbId} (h : s.mbx[m].phase = .rung) : s.endsNow m = true := by
  have e : s.mbx[m].taken = false := by unfold Mailbox.taken; rw [h]
  unfold State.endsNow
  rw [e, h, Bool.and_false]
  rfl

/-- Ending at once is about the mailboxes and the boot state. -/
theorem State.endsNow_congr {s u : State} {m : MbId} (hu : u.mbx = s.mbx) (h : s.mbx[m].phase = .rung) :
    u.endsNow m = true := State.endsNow_rung (by rw [hu]; exact h)

/-- Counting bytes touches the running counts alone. -/
theorem State.countBytes_perf (port n : Nat) (s : State) :
    (s.countBytes port n).perf = { s.perf with count := (s.countBytes port n).perf.count } := by
  unfold State.countBytes
  split <;> rfl

theorem State.complete_perf (m : MbId) (st : BitVec 2) (ws : List Word) (s : State) :
    (s.complete m st ws).perf = { s.perf with count := (s.complete m st ws).perf.count } := by
  unfold State.complete
  split
  · rfl
  · split
    · rfl
    · exact State.countBytes_perf 2 _ (s.modMb m _)

/-- Two states alike but for mailboxes and byte counts, one after the other. -/
theorem State.alike_trans {u v t : State} (h1 : v = { u with mbx := v.mbx, perf := { u.perf with count := v.perf.count } })
    (h2 : t = { v with mbx := t.mbx, perf := { v.perf with count := t.perf.count } }) :
    t = { u with mbx := t.mbx, perf := { u.perf with count := t.perf.count } } := by
  rw [h1] at h2
  exact h2

/-- From `Told` and the counters. -/
theorem State.alike_of {u t : State} (h : u.Told t) (p : t.perf = { u.perf with count := t.perf.count }) :
    t = { u with mbx := t.mbx, perf := { u.perf with count := t.perf.count } } := by
  unfold State.Told at h
  rw [← p]
  exact h

/-- What a settling pass keeps of the state it started from. -/
def State.Settling (s t : State) : Prop :=
  t = { s with mbx := t.mbx, perf := { s.perf with count := t.perf.count } } ∧
    ∀ k : MbId, t.mbx[k] = s.mbx[k] ∨ (s.mbx[k].phase = .rung ∧ t.mbx[k].phase = .idle)

theorem State.noReset_phase {s : State} (h : s.noReset = true) (k : MbId) :
    s.mbx[k].phase ≠ .waiting .resetPend ∧ s.mbx[k].phase ≠ .waiting .xbuf := by
  have := List.all_eq_true.mp h k (List.mem_finRange k)
  simpa using this

/-- One mailbox of a pass: nothing, or an error completion of a rung command. -/
theorem State.settleOne_settling {s : State} (h : s.noReset = true) (m : MbId) {t : State} (ht : s.Settling t) :
    s.Settling (t.settleOne m) := by
  unfold State.settleOne
  split
  · rename_i hr
    split
    · rename_i e he
      have hrung : t.mbx[m].phase = .rung := by simpa [Mailbox.rung] using hr.1
      refine ⟨State.alike_trans ht.1 (State.alike_of (State.err_told m e 0 t) (State.complete_perf m 3 _ t)), fun k => ?_⟩
      · by_cases hk : k = m
        · subst hk
          rcases ht.2 k with e1 | e1
          · refine Or.inr ⟨e1 ▸ hrung, ?_⟩
            exact congrArg Mailbox.phase (State.complete_self (State.endsNow_rung hrung) 3 _)
          · rw [hrung] at e1; exact absurd e1.2 (by decide)
        · rw [State.err, State.complete_other _ _ _ hk]; exact ht.2 k
    · exact ht
  · split
    · rename_i hw
      exfalso
      rcases ht.2 m with e1 | e1
      · exact (State.noReset_phase h m).1 (e1 ▸ hw.1)
      · rw [hw.1] at e1; exact absurd e1.2 (by decide)
    · split
      · rename_i hw
        exfalso
        rcases ht.2 m with e1 | e1
        · exact (State.noReset_phase h m).2 (e1 ▸ hw.1)
        · rw [hw.1] at e1; exact absurd e1.2 (by decide)
      · exact ht

theorem State.settleN_settling {s : State} (h : s.noReset = true) :
    ∀ (n : Nat) {t : State}, s.Settling t → s.Settling (State.settleN n t)
  | 0, _, ht => ht
  | n + 1, _, ht =>
    State.settleN_settling h n (State.each_keeps (fun u => s.Settling u) State.settleOne
      (fun a _ hu => State.settleOne_settling h a hu) allMbs _ ht)

/-- Settling touches the mailboxes that were rung with a header in error, and byte counts (R115, R553). -/
theorem State.settle_beside {s : State} (h : s.noReset = true) : s.Beside s.settle := by
  have q : s.Settling s.settle := by
    unfold State.settle
    exact State.settleN_settling h 8 ⟨rfl, fun k => Or.inl rfl⟩
  refine ⟨q.1, fun k hk => ?_⟩
  rcases q.2 k with e | e
  · exact e
  · exact absurd e.1 hk

/-- A command that is taken executes its effect (R139). -/
theorem State.run_takes {s : State} {m : MbId} {abi op : Nat} {t : Target} (h : s.takes m abi op t = true)
    (f : Target → State → State) : s.run m abi op f = (f t s).settle := by
  simp only [State.takes, Bool.and_eq_true, decide_eq_true_eq, Bool.not_eq_true'] at h
  simp [State.run, h.1.1.1, h.1.1.2, h.1.2]

theorem State.takes_noReset {s : State} {m : MbId} {abi op : Nat} {t : Target} (h : s.takes m abi op t = true) :
    s.noReset = true := by
  simp only [State.takes, Bool.and_eq_true] at h
  exact h.2

/-- A command that is taken now was rung. -/
theorem State.takes_rung {s : State} {m : MbId} {abi op : Nat} {t : Target} (h : s.takes m abi op t = true) :
    s.mbx[m].phase = .rung := by
  simp only [State.takes, State.due, Mailbox.rung, Bool.and_eq_true, decide_eq_true_eq] at h
  exact h.1.1.1.1.1.1.1.1

/-- The waits of the mailboxes after a completion: none new. -/
theorem State.complete_noReset {s u : State} (hu : u.mbx = s.mbx) (h : s.noReset = true) (m : MbId) (st : BitVec 2)
    (ws : List Word) : (u.complete m st ws).noReset = true := by
  refine List.all_eq_true.mpr fun k _ => ?_
  by_cases hk : k = m
  · subst hk
    simpa using ⟨State.complete_waits k st ws u .resetPend, State.complete_waits k st ws u .xbuf⟩
  · rw [State.complete_other _ _ _ hk, hu]
    simpa using State.noReset_phase h k

/-- A command that ends now, with an effect `u`: what its step leaves (R109, R114). -/
theorem State.settle_complete {s u : State} (hu : u.mbx = s.mbx) (hr : s.noReset = true) {m : MbId}
    (he : u.endsNow m = true) (st : BitVec 2) (ws : List Word) :
    s.Completes m st ws u ((u.complete m st ws).settle) := by
  have b := State.settle_beside (State.complete_noReset hu hr m st ws)
  have self : (u.complete m st ws).mbx[m] = s.mbx[m].finish st ws := by rw [State.complete_self he, hu]
  refine ⟨?_, ?_, fun k hk hp => ?_⟩
  · rw [b.2 m (by rw [self, Mailbox.finish_phase]; simp), self]
  · exact State.alike_trans (State.alike_of (State.complete_told m st ws u) (State.complete_perf m st ws u)) b.1
  · have o : (u.complete m st ws).mbx[k] = s.mbx[k] := by rw [State.complete_other _ _ _ hk, hu]
    rw [b.2 k (by rw [o]; exact hp), o]

/-- A command that is taken and waits: what its step leaves (R113, R116). -/
theorem State.settle_wait {s u : State} (hu : u.mbx = s.mbx) (hr : s.noReset = true) (m : MbId) (w : Wait)
    (hw : w ≠ .resetPend ∧ w ≠ .xbuf) : s.Pends m w u ((u.wait m w).settle) := by
  have self : (u.wait m w).mbx[m] = { s.mbx[m] with phase := .waiting w } := by
    unfold State.wait; rw [State.modMb_same, hu]
  have other : ∀ k : MbId, k ≠ m → (u.wait m w).mbx[k] = s.mbx[k] := by
    intro k hk; unfold State.wait; rw [State.modMb_other _ _ hk, hu]
  have nr : (u.wait m w).noReset = true := by
    refine List.all_eq_true.mpr fun k _ => ?_
    by_cases hk : k = m
    · subst hk; rw [self]; simpa using hw
    · rw [other k hk]; simpa using State.noReset_phase hr k
  have b := State.settle_beside nr
  refine ⟨?_, ?_, fun k hk hp => ?_⟩
  · rw [b.2 m (by rw [self]; simp), self]
  · exact State.alike_trans (v := u.wait m w) rfl b.1
  · rw [b.2 k (by rw [other k hk]; exact hp), other k hk]

/-- A command whose effect for its target is `u` and a completion. -/
theorem State.run_done {s u : State} {m : MbId} {abi op : Nat} {t : Target} (h : s.takes m abi op t = true)
    (f : Target → State → State) (ws : List Word) (e : f t s = u.done m ws) (hu : u.mbx = s.mbx) :
    ∃ v, (Host.Outcome.next (s.run m abi op f) : Host.Outcome State Fault Refusal) = .next v ∧ s.Completes m 2 ws u v := by
  refine ⟨_, rfl, ?_⟩
  rw [State.run_takes h, e]
  exact State.settle_complete hu (State.takes_noReset h) (State.endsNow_congr hu (State.takes_rung h)) 2 ws

/-- A command that its target refuses. -/
theorem State.run_err {s u : State} {m : MbId} {abi op : Nat} {t : Target} (h : s.takes m abi op t = true)
    (f : Target → State → State) (k : ECode) (d : Nat) (e : f t s = u.err m k d) (hu : u.mbx = s.mbx) :
    ∃ v, (Host.Outcome.next (s.run m abi op f) : Host.Outcome State Fault Refusal) = .next v ∧
      s.Completes m 3 (errWords k d) u v := by
  refine ⟨_, rfl, ?_⟩
  rw [State.run_takes h, e]
  exact State.settle_complete hu (State.takes_noReset h) (State.endsNow_congr hu (State.takes_rung h)) 3 _

/-- A command that waits with an effect `u`. -/
theorem State.run_wait {s u : State} {m : MbId} {abi op : Nat} {t : Target} (h : s.takes m abi op t = true)
    (f : Target → State → State) (w : Wait) (e : f t s = u.wait m w) (hu : u.mbx = s.mbx)
    (hw : w ≠ .resetPend ∧ w ≠ .xbuf) :
    ∃ v, (Host.Outcome.next (s.run m abi op f) : Host.Outcome State Fault Refusal) = .next v ∧ s.Pends m w u v := by
  refine ⟨_, rfl, ?_⟩
  rw [State.run_takes h, e]
  exact State.settle_wait hu (State.takes_noReset h) m w hw

end Sys2Proof.Machine
end

