-- ==== Sys2Proof/Tests/Slice0.lean ====
section
/-! SUPPORT. Ill-formed commands that the check refuses, one named witness per statement that shows states and operands meeting its
hypotheses clause by clause, and small tests whose results come from the spec's own examples. -/
namespace Sys2Proof.Tests

open Sys2Proof Sys2Proof.Machine

/-! ## States to start from -/

/-- A node whose firmware runs, every bank in RUN. -/
def node : State :=
  { State.reset with boot := 1, links := true, banks := Vector.replicate 12 { view := .run, st := .run, lock := true } }

/-- The same with one bank changed. -/
def bankAs (b : BankId) (f : Bank → Bank) : State := node.modBank b f

/-- The same with axis 0 in STANDBY, and changed. -/
def axisAs (f : Axis → Axis) : State := node.modAxis 0 fun a => f { a with eng := { a.eng with st := .standby } }

/-- Four die readings at 25 °C: the write window is open. -/
def open_ (s : State) : State := { s with kiln := { s.kiln with die := [250, 250, 250, 250] } }

/-- A header of R108. -/
def header (abi count tgt op : Nat) : Word := BitVec.ofNat 32 (abi * 2 ^ 30 + count * 2 ^ 24 + tgt * 2 ^ 10 + op)

/-- A mailbox holds a rung command. -/
def rung (m : MbId) (abi tgt op : Nat) (words : List Word) (s : State) : State :=
  s.modMb m fun x => { x with
    copy := Vector.ofFn fun i => if i.val = 0 then header abi words.length tgt op else words.getD (i.val - 1) 0,
    rsp := x.rsp.set 0 (1#2 ++ 0#30), phase := .rung }

/-- An applied and staged parameter word. -/
def setP (unit ident w : Nat) (v : Word) (s : State) : State :=
  { s with nodeP := s.nodeP.putSpan true unit ident w [v] }

/-- An applied word of a bank's own copy. -/
def setB (unit ident w : Nat) (v : Word) (s : State) : State :=
  { s with bankP := s.bankP.putSpan true unit ident w [v] }

/-! ## Ill-formed commands -/

theorem test_wf_slot : (Instr.hostWrite ⟨0x7f, 0⟩ 0 false).wf = false ∧ (Instr.hostWrite ⟨0x7e, 0⟩ 0 false).wf = true ∧
    (Instr.wideLowWrite ⟨0x7f, 0⟩ 0).wf = false ∧
    (Instr.wideHighWrite ⟨0x7f, 0⟩ 0).wf = false ∧ (Instr.faultAcknowledge ⟨0x7f, 0⟩ 0).wf = false ∧
    (Instr.frxWrite ⟨0x7f, 0⟩ 0).wf = false := by decide

theorem test_wf_half : (Instr.sframeLowHalfRead ⟨0x7f, 0⟩ .full).wf = false ∧
    (Instr.sframeLowHalfRead ⟨3, 0⟩ .full).wf = false ∧ (Instr.sframeLowHalfRead ⟨2, 0⟩ .full).wf = true := by decide

theorem test_wf_overrun : (Instr.overrunRead ⟨0x7e, 0⟩ .full).wf = false ∧ (Instr.overrunRead ⟨0x7e, 1⟩ .full).wf = true := by
  decide

theorem test_wf_image : (Instr.fwVerify 0 ⟨7, 0, 0, 0, 0⟩ true).wf = false ∧
    (Instr.starterBoot ⟨7, 0, 0, 0, 0⟩ ⟨0, 0, 0, 0, 0⟩ ⟨0, 0, 0, 0, 0⟩).wf = false ∧
    (Instr.starterBoot ⟨0, 0, 0, 0, 0⟩ ⟨7, 0, 0, 0, 0⟩ ⟨0, 0, 0, 0, 0⟩).wf = false ∧
    (Instr.starterBoot ⟨0, 0, 0, 0, 0⟩ ⟨0, 0, 0, 0, 0⟩ ⟨7, 0, 0, 0, 0⟩).wf = false := by decide

/-- A report of an axis at rest. -/
def report (pos : Int) (st : BitVec 3) : AxisReport := ⟨pos, st, false, false, 0⟩

theorem test_wf_report : (Instr.heartbeatReceive 4 false 0 (Vector.replicate 24 (report 0 0))).wf = false ∧
    (Instr.heartbeatReceive 1 false 0 (Vector.replicate 24 (report 0 6))).wf = false ∧
    (Instr.heartbeatReceive 1 false 0 (Vector.replicate 24 (report 140737488355328 0))).wf = false ∧
    (Instr.handOverReceive [] (Vector.replicate 24 ⟨report 0 6, 0, 0⟩)).wf = false ∧
    (Instr.handOverReceive [] (Vector.replicate 24 ⟨report (-140737488355328) 5, 0, 0⟩)).wf = true := by decide

theorem test_wf_lengths : (Instr.windowStore 0 []).wf = false ∧ (Instr.windowStore 0 (List.replicate 9 0)).wf = false ∧
    (Instr.windowStore 0xfffffff [0, 0]).wf = false ∧ (Instr.windowStore 0xfffffff [0]).wf = true := by decide

theorem test_wf_transfer : ∀ rx : List Byte, 4096 < rx.length → (Instr.transferEnd rx 0 true).wf = false := by
  intro rx h; simpa [Instr.wf] using h

theorem test_wf_numbers : (Instr.auxPwmSync 6 true).wf = false ∧ (Instr.safeInputAssert true 6).wf = false ∧
    (Instr.safeInputRelease false 6).wf = false ∧ (Instr.stepEdge 24 true true false).wf = false ∧
    (Instr.stepEdge 23 true true false).wf = true := by decide

/-! ## Witnesses: mailbox commands -/

theorem witness_SystemCommandsComplete :
    (rung 0 2 0 0x000 [] node).takes 0 2 0x000 .node = true ∧ (rung 7 2 0 0x007 [] node).takes 7 2 0x007 .node = true ∧
    (rung 0 2 0 0x001 [] node).takes 0 2 0x001 .node = true ∧ (rung 0 1 0 0x001 [] node).takes 0 1 0x001 .node = true ∧
    (let s := (rung 1 2 0 0x007 [] (rung 0 2 0 0x006 [] node)).modMb 1 fun x => { x with ring := 1 }
     s.mbx[(1 : MbId)].isFence = true ∧ s.mbx[(0 : MbId)].phase ≠ .idle ∧ s.mbx[(0 : MbId)].ring < s.mbx[(1 : MbId)].ring) := by
  decide

/-- CMD1 of a span. -/
def span (ident w : Nat) : Word := BitVec.ofNat 32 (w * 65536 + ident)

/-- Whether the checks of a span pass, and whether the parameter is held in the bank. -/
def spanHeld (t : Target) (w : Word) (n : Option Nat) : Option Bool := (checkSpan t w n false).toOption.map fun p => p.id.bankHeld

theorem witness_Reads : (rung 0 2 0x20 0x002 [span 0x3000 0] node).takes 0 2 0x002 (.axis 0) = true ∧
    (rung 0 2 0x20 0x004 [span 0x3000 0, 1] node).takes 0 2 0x004 (.axis 0) = true ∧
    (rung 0 1 0x20 0x002 [span 0x3000 0] node).takes 0 1 0x002 (.axis 0) = true ∧
    spanHeld (.axis 0) (span 0xffff 0) none = none ∧ spanHeld (.axis 0) (span 0x3000 0) none = some false ∧
    spanHeld (.axis 0) (span 0x3410 0) none = some true ∧ spanHeld (.axis 0) (span 0x3f40 1) (some 1) = some true ∧
    Target.bank? (.axis 0) = some 0 ∧ Target.bank? .node = none ∧ spanHeld .node (span 0x1100 0) none = some false ∧
    node.linked 0 = true ∧ State.reset.linked 0 = false := by decide

/-- The verdict on words of a parameter, and whether its bank holds it. -/
def writes (s : State) (ident : Nat) (vals : List Word) : Option (Option (ECode × Nat) × Bool) :=
  match identOf ident with
  | some (.param d) => some (s.writeErr (.axis 0) d 0 vals, d.bankHeld)
  | _ => none

theorem witness_Writes :
    (rung 0 2 0x20 0x003 [span 0x3000 0, 64] node).takes 0 2 0x003 (.axis 0) = true ∧
    (rung 0 1 0x20 0x003 [span 0x3000 0, 64] node).takes 0 1 0x003 (.axis 0) = true ∧
    writes node 0x3000 [64] = some (none, false) ∧ (writes node 0x3000 [63]).map (fun p => p.1.isSome) = some true ∧
    writes node 0x3410 [5461] = some (none, true) ∧ writes node 0x3004 [1] = some (none, false) ∧
    writes node 0x3f00 [1] = none ∧ (identOf 0x3f00).isSome = true ∧ (node.landEffect (.axis 0) 0x3000 node).boot = node.boot := by decide

theorem witness_StagedWordReadsBack : cellsWf keyDefault 0 node.nodeP.staged = true ∧
    cellsWf keyDefault 0 ((setP 0 0x3000 0 64 node).nodeP.applied) = true := by decide

theorem witness_MoveCommands :
    (let s := axisAs id
     motionOpen s 0 ∧ (rung 0 2 0x20 0x040 [5, 0] s).takes 0 2 0x040 (.axis 0) = true ∧
     (rung 0 2 0x20 0x040 [5, 0x10000000] s).takes 0 2 0x040 (.axis 0) = true ∧
     (rung 0 2 0x20 0x041 [5, 0] s).takes 0 2 0x041 (.axis 0) = true ∧
     (rung 0 2 0x20 0x042 [5] s).takes 0 2 0x042 (.axis 0) = true ∧
     (rung 0 1 0x20 0x010 [5] s).takes 0 1 0x010 (.axis 0) = true ∧
     (rung 0 1 0x20 0x011 [33554431] s).takes 0 1 0x011 (.axis 0) = true ∧
     inRange (s.axes[(0 : AxisId)].eng.byBase + 5) = true ∧ (0x80000001 : Word) ≠ 0x80000000) ∧
    (¬ motionOpen node 0 ∧ (rung 0 2 0x20 0x040 [5, 0] node).takes 0 2 0x040 (.axis 0) = true ∧
     (rung 0 2 0x20 0x100 [] node).takes 0 2 0x100 (.axis 0) = true) := by
  unfold motionOpen; decide

theorem witness_StopHomeSetPosition :
    (rung 0 2 0x20 0x043 [1] node).takes 0 2 0x043 (.axis 0) = true ∧ (rung 0 1 0x20 0x012 [] node).takes 0 1 0x012 (.axis 0) = true ∧
    (rung 0 2 0x20 0x044 [0, 0] node).takes 0 2 0x044 (.axis 0) = true ∧ node.axes[(0 : AxisId)].eng.redefOk 7 = true ∧
    (axisAs id).axes[(0 : AxisId)].eng.redefOk 4096 = true ∧
    ((axisAs fun a => { a with eng := { a.eng with armed := some ⟨.target 0, ⟨0, 0, 0, 0⟩⟩ } }).axes[(0 : AxisId)].eng.armed ≠ none) ∧
    (let s := rung 0 2 0x20 0x100 [1] (axisAs id)
     s.takes 0 2 0x100 (.axis 0) = true ∧ motionOpen s 0 ∧ s.axes[(0 : AxisId)].eng.st = .standby ∧ s.homeBlind 0 = false) := by
  unfold motionOpen; decide

theorem witness_EnableLands :
    (rung 0 2 0x20 0x008 [1] node).takes 0 2 0x008 (.axis 0) = true ∧ (rung 0 1 0x20 0x006 [1] node).takes 0 1 0x006 (.axis 0) = true ∧
    (rung 0 2 0 0x008 [0xffffff, 1] node).takes 0 2 0x008 .node = true ∧ node.axisPresent 23 = true ∧
    (rung 0 2 0 0x008 [0xffffff, 1] { node with part := .g16 }).takes 0 2 0x008 .node = true ∧
    ({ node with part := .g16 } : State).axisPresent 16 = false := by decide

/-- A stream of axis 0. -/
def streaming (t : Stream) : State := axisAs fun a => { a with eng := { a.eng with st := .follow }, str := t }

theorem witness_StreamsOpen :
    (rung 0 2 0xa0 0x00b [0] node).takes 0 2 0x00b (.stream 0) = true ∧
    (rung 0 2 0xa0 0x00b [0x10000000, 0, 1] node).takes 0 2 0x00b (.stream 0) = true ∧
    node.windowStream 0 = none ∧ node.axes[(0 : AxisId)].str.engaged = false ∧
    (streaming { st := some .run, window := some 0 }).windowStream 0 ≠ none ∧
    (setP 0 0x7100 0 1 node).xwen = true ∧ (setP 0 0x7100 0 1 node).inWindow 0 8 = true ∧ node.xwen = false := by decide

theorem witness_StreamsCloseFlushAck :
    (rung 0 2 0xa0 0x00c [] (streaming { st := some .run })).takes 0 2 0x00c (.stream 0) = true ∧
    (rung 0 2 0xa0 0x00c [] node).takes 0 2 0x00c (.stream 0) = true ∧ node.axes[(0 : AxisId)].str.st = none ∧
    (rung 0 2 0xa0 0x081 [] (streaming { st := some .done })).takes 0 2 0x081 (.stream 0) = true ∧
    (rung 0 2 0xa0 0x081 [] (streaming { st := some .pending })).takes 0 2 0x081 (.stream 0) = true ∧
    (rung 0 2 0xa0 0x082 [1] node).takes 0 2 0x082 (.stream 0) = true := by decide

theorem witness_StreamsStart :
    (let s := setP 0 0x3006 0 2 (streaming { st := some .open_, fifo := List.replicate 64 ⟨0, 1, false⟩ })
     s.startOk 0 = true ∧ (rung 0 2 0xa0 0x080 [0] s).takes 0 2 0x080 (.stream 0) = true ∧
     (rung 0 2 0 0x080 [1, 0x10000003] s).takes 0 2 0x080 .node = true ∧
     (((0x10000003 : Word).extractLsb' 0 16).toNat + 65536 - (s.tick + 1) % 65536) % 65536 = 2 ∧ s.axisPresent 0 = true) ∧
    node.startOk 0 = false ∧ (rung 0 2 0xa0 0x080 [] node).takes 0 2 0x080 (.stream 0) = true ∧
    (rung 0 2 0 0x080 [1] node).takes 0 2 0x080 .node = true := by decide

theorem witness_Harmonics :
    (rung 0 2 0x20 0x0c0 [] node).takes 0 2 0x0c0 (.axis 0) = true ∧
    (rung 0 2 0x20 0x0c1 [0, 0] node).takes 0 2 0x0c1 (.axis 0) = true ∧ node.banks[bankOf 0].view = .run ∧
    fieldN (node.bA 0 0x3414 0) 16 16 = 1638 ∧
    (∀ i : Fin 4, (harmOf 0x06660666 0)[i].toInt.natAbs ≤ 1638) ∧ (∃ i : Fin 4, 1638 < (harmOf 0x06670000 0)[i].toInt.natAbs) ∧
    State.reset.banks[bankOf 0].view = .unpowered ∧
    (rung 0 2 0x20 0x0c1 [0, 0] (bankAs 0 fun k => { k with view := .linking })).takes 0 2 0x0c1 (.axis 0) = true ∧
    (rung 0 2 0x20 0x0c2 [] node).takes 0 2 0x0c2 (.axis 0) = true ∧ node.axes[(0 : AxisId)].eng.st = .off ∧
    (rung 0 2 0x20 0x0c2 [] (axisAs id)).takes 0 2 0x0c2 (.axis 0) = true ∧ (axisAs id).axes[(0 : AxisId)].eng.st ≠ .off ∧
    node.linked 0 = true ∧ (bankAs 0 fun k => { k with view := .linking }).linked 0 = false := by decide

theorem witness_CommitAndStore :
    (let s := rung 0 2 0x10 0x005 [1] node
     s.takes 0 2 0x005 (.bank 0) = true ∧ ∀ b ∈ (commitOf s 0 (.bank 0)).banks ++ (commitOf s 0 (.bank 0)).axes.map bankOf, s.linked b = true) ∧
    (let s := rung 0 1 0x20 0x004 [] (bankAs 0 fun k => { k with view := .linking })
     s.takes 0 1 0x004 (.axis 0) = true ∧
     ∃ b ∈ (commitOf s 0 (.axis 0)).banks ++ (commitOf s 0 (.axis 0)).axes.map bankOf, s.linked b = false) ∧
    (open_ node).kiln.open_ = true ∧ (rung 0 2 0 0x006 [] (open_ node)).takes 0 2 0x006 .node = true ∧
    (rung 0 1 0 0x005 [] node).takes 0 1 0x005 .node = true ∧ node.kiln.open_ = false := by decide

theorem witness_BankCommandsTravel :
    (rung 0 2 0x10 0x009 [1] node).takes 0 2 0x009 (.bank 0) = true ∧ node.banks[(0 : BankId)].view = .run ∧
    (rung 0 2 0x10 0x009 [0] (bankAs 0 fun k => { k with view := .service })).takes 0 2 0x009 (.bank 0) = true ∧
    (rung 0 2 0x10 0x009 [0] node).takes 0 2 0x009 (.bank 0) = true ∧ (rung 0 2 0x10 0x141 [] node).takes 0 2 0x141 (.bank 0) = true ∧
    (bankAs 0 fun k => { k with view := .safe, undelivered := true }).banks[(0 : BankId)].undelivered = true ∧
    (bankAs 0 fun k => { k with view := .linking }).linked 0 = false ∧
    (rung 0 2 0x10 0x141 [] (bankAs 0 fun k => { k with view := .safe })).takes 0 2 0x141 (.bank 0) = true ∧
    (rung 0 2 0x10 0x280 [0x1ff] node).takes 0 2 0x280 (.bank 0) = true ∧ node.linked 0 = true ∧
    (rung 0 2 0x10 0x34e [] (bankAs 0 fun k => { k with view := .service })).takes 0 2 0x34e (.bank 0) = true ∧
    (∀ p : Pos, node.axes[axisAt 0 p].eng.st = .off) ∧ (∃ p : Pos, (axisAs id).axes[axisAt 0 p].eng.st ≠ .off) := by decide

theorem witness_SafeAndSpareCommands :
    (rung 0 2 0x10 0x140 [] node).takes 0 2 0x140 (.bank 0) = true ∧ (rung 0 2 0 0x140 [] node).takes 0 2 0x140 .node = true ∧
    (∃ b ∈ node.sideBanks 0, node.linked b = true) ∧ (∀ b ∈ State.reset.sideBanks 0, State.reset.linked b = false) ∧
    node.banks[(0 : BankId)].softReq = false ∧
    (let s := bankAs 0 fun k => { k with view := .service }
     (rung 0 2 0x20 0x180 [0] s).takes 0 2 0x180 (.axis 0) = true ∧ s.axes[(0 : AxisId)].eng.st = .off ∧ s.swapRuns 0 = false ∧
     spareFree s.banks[(0 : BankId)].mir.spare 0 = true ∧
     spareFree (BitVec.ofNat 32 0x4040) 0 = false ∧ (rung 0 2 0x20 0x181 [0] s).takes 0 2 0x181 (.axis 0) = true ∧
     spareServes (BitVec.ofNat 32 0x40) (legOf 0 0) = true) ∧
    (rung 0 2 0x20 0x180 [0] node).takes 0 2 0x180 (.axis 0) = true ∧ node.banks[(0 : BankId)].view ≠ .service := by decide

theorem witness_UnitCommands :
    (rung 0 2 0x10 0x1c0 [] node).takes 0 2 0x1c0 (.bank 0) = true ∧ (rung 0 2 0x90 0x1c0 [] node).takes 0 2 0x1c0 .aux = true ∧
    (let s := setP 0 0x5000 0 4 node
     (rung 0 2 0x80 0x200 [5] s).takes 0 2 0x200 (.fb 0) = true ∧ (s.fbCfg 0).mode = 4 ∧
     (rung 0 2 0x80 0x201 [] s).takes 0 2 0x201 (.fb 0) = true) ∧ (node.fbCfg 0).mode = 0 ∧
    (rung 0 2 0x91 0x00a [] node).takes 0 2 0x00a .kiln = true := by decide

theorem witness_FaultCommands : (rung 0 2 0 0x2c0 [1] node).takes 0 2 0x2c0 .node = true ∧
    (rung 0 2 0 0x2c0 [] node).takes 0 2 0x2c0 .node = true ∧ (((rung 0 2 0 0x2c0 [8] node).mbx[(0 : MbId)].pay 1).extractLsb' 0 3).toNat = 0 ∧
    (rung 0 2 0x10 0x2c1 [0] node).takes 0 2 0x2c1 (.bank 0) = true ∧ (Target.bank 0).testBlock false = some (.bank 0) ∧
    classOf .g24t (.bank 0) 0 = some 0 ∧ (node.block (.bank 0)).fen.getLsbD 0 = true ∧
    (Target.bank 0).testBlock true = some (.conv 0) ∧ classOf .g24t (.bank 0) 5 = some 3 ∧
    (node.block (.bank 0)).fen.getLsbD 5 = true ∧ (node.block (.bank 0)).pend.getLsbD 3 = false ∧
    ((node.modBlock (.bank 0) fun f => { f with pend := 8 }).block (.bank 0)).pend.getLsbD 3 = true ∧
    ((node.modBlock (.bank 0) fun f => { f with fen := 0 }).block (.bank 0)).fen.getLsbD 0 = false := by decide +kernel

theorem witness_BlockResets :
    (rung 0 2 0x20 0x00a [] node).takes 0 2 0x00a (.axis 0) = true ∧ node.resetAllowed (.axis 0) = true ∧
    (rung 0 2 0x20 0x00a [] node).blockBusy 0 = false ∧ (Target.axis 0).resetOp.map (fun p => p.1) = some 0 ∧ node.linked 0 = true ∧
    (bankAs 0 fun k => { k with view := .linking }).linked 0 = false ∧ Target.kiln.resetOp = none ∧
    (rung 0 1 0x20 0x01f [] node).takes 0 1 0x01f (.axis 0) = true ∧ node.resetAllowed (.bank 0) = false ∧
    (rung 0 2 0x10 0x00a [] node).takes 0 2 0x00a (.bank 0) = true ∧ (Target.axis 0).block? = some (.axis 0) ∧
    (node.resetTarget .kiln none).boot = node.boot ∧ (Target.fb 0).block? = some (.fb 0) ∧
    (FbChan.resetBlock (node.fbCfg 0) node.now node.fbs[(0 : FbId)]).2 = [] ∧
    (let s := rung 0 2 0x20 0x00a [] (node.modMb 1 fun x => { x with
       copy := x.copy.set 0 (header 2 0 0x20 0x0c0), phase := .waiting (.bank 0 []) })
     s.takes 0 2 0x00a (.axis 0) = true ∧ s.blockBusy 0 = true) := by decide

/-! ## Witnesses: power entry, resets, faults -/

/-- The power entry changed. -/
def entryAs (f : Entry → Entry) : State := { node with entry := f node.entry }

theorem witness_EntryCommands :
    (rung 0 2 0x92 0x240 [] (entryAs fun e => { e with st := .refused })).takes 0 2 0x240 .entry = true ∧
    (rung 0 2 0x92 0x240 [] (entryAs fun e => { e with mainsok := true })).takes 0 2 0x240 .entry = true ∧
    (rung 0 2 0x92 0x240 [] node).takes 0 2 0x240 .entry = true ∧ node.entry.st = .off ∧ node.entry.mainsok = false ∧
    (rung 0 2 0x92 0x241 [] node).takes 0 2 0x241 .entry = true ∧ (∀ n : AxisId, n.val < 24 → node.axes[n].eng.st = .off) ∧
    (∃ n : AxisId, n.val < 24 ∧ (axisAs id).axisPresent n = true ∧ (axisAs id).axes[n].eng.st ≠ .off) := by decide

theorem witness_Mains : node.powered = true ∧ (2750 : Half).toNat ≤ 2750 ∧ 2750 < (2751 : Half).toNat ∧ node.entry.high = false ∧
    node.entry.mainsok = false ∧ (entryAs fun e => { e with mainsok := true }).entry.mainsok = true ∧ node.entry.low = false ∧
    node.entry.freqAt = none ∧
    (entryAs fun e => { e with freqAt := some 5 }).entry.freqAt = some 5 ∧ node.edgeT < 5 + 20000 ∧
    ({ entryAs (fun e => { e with freqAt := some 5 }) with edgeT := 20005 } : State).edgeT = 5 + 20000 ∧
    (entryAs fun e => { e with mainsok := true, halves := [2300] }).entry.halves ≠ [] ∧
    (entryAs fun e => { e with high := true }).entry.high = true ∧ node.entry.st = .off ∧ node.entry.dischDue = false ∧
    node.entry.holdOff = false ∧ node.autorst = true ∧ (setP 0 0x1400 0 0x01f40003 node).autorst = false ∧
    (entryAs fun e => { e with st := .discharge, mainsok := true }).entry.st = .discharge ∧
    (entryAs fun e => { e with st := .refused, mainsok := true }).entry.st = .refused ∧
    (∃ b : BankId, b.val < 6 ∧ node.present b = true ∧ node.banks[b].view = .run) := by decide

theorem witness_Precharge : (entryAs fun e => { e with st := .precharge, step := 1 }).entry.step = 1 ∧
    (entryAs fun e => { e with st := .precharge, step := 2 }).entry.step = 2 ∧ node.entry.xcap = false ∧ node.entry.holdOff = false ∧
    node.entry.dischDue = false ∧
    2000 ≤ (2000 : Word).toNat ∧ (41600 : Word).toNat ≤ 41600 ∧ 41600 < (41601 : Word).toNat ∧ (1999 : Word).toNat < 2000 ∧
    (entryAs fun e => { e with st := .ramp }).entry.st = .ramp ∧
    (setP 0 0x1400 0 0x01f40003 node).chopen = false ∧ (setP 0 0x1400 0 0x01f4000f node).chopen = true ∧
    (let i : Half := 100; let bus : Half := 400; bus.toNat ≤ 4 * i.toNat ∧ 2 * i.toNat ≤ 5 * bus.toNat) ∧
    (let i : Half := 100; let bus : Half := 401; 4 * i.toNat < bus.toNat) ∧
    (let i : Half := 1001; let bus : Half := 400; bus.toNat ≤ 4 * i.toNat ∧ 5 * bus.toNat < 2 * i.toNat) ∧
    (entryAs fun e => { e with refusing := true }).entry.refusing = true ∧ node.entry.mainsok = false := by decide

theorem witness_BusSupervision : node.entry.inlim = false ∧ (entryAs fun e => { e with inlim := true }).entry.inlim = true ∧
    (setP 0 0x1400 0 0x01f4000f (entryAs fun e => { e with st := .run })).chopen = true ∧
    (entryAs fun e => { e with st := .run }).entry.st = .run ∧ node.entry.chopShort = false ∧ node.entry.chopLong = false ∧
    (entryAs fun e => { e with chopon := true }).entry.chopon = true ∧ node.entry.bleed = false ∧ node.chopen = false ∧
    (let s := setP 0 0x1400 0 0x01f4000f (entryAs fun e => { e with chopon := true, chopT := 10000 })
     20 * fieldN (s.pA 0 0x1400 0) 16 16 < s.entry.chopT + s.units) ∧ ({ node with refOk := false } : State).refOk = false ∧
    (entryAs fun e => { e with pfcOn := true }).entry.pfcOn = true ∧ node.entry.pfcOv = false ∧
    fieldN (node.pA 0 0x1400 0) 1 1 = 1 ∧ fieldN (node.pA 0 0x1400 0) 0 1 = 1 := by decide

theorem witness_Discharge : (entryAs fun e => { e with dischDue := true }).entry.dischDue = true ∧
    (entryAs fun e => { e with st := .discharge, refusing := true }).entry.refusing = true ∧
    (entryAs fun e => { e with st := .discharge, returned := true }).autorst = true ∧
    (entryAs fun e => { e with disch := true }).entry.disch = true ∧ node.entry.bleed = false ∧
    (entryAs fun e => { e with paused := true }).entry.paused = true ∧ node.chopen = false ∧
    (setP 0 0x1400 0 0x01f4000f node).chopen = true ∧ node.entry.chopShort = false ∧
    (entryAs fun e => { e with chopShort := true }).entry.chopShort = true ∧ node.entry.again = false ∧
    (let e := (entryAs fun e => { e with st := .discharge, again := true, mainsok := true }).entry
     e.st = .discharge ∧ e.refusing = false ∧ e.again = true ∧ e.mainsok = true) ∧
    (let e := (entryAs fun e => { e with st := .discharge, disch := true, refusing := true }).entry
     e.disch = true ∧ e.st = .discharge ∧ e.refusing = true) ∧
    node.entry.holdOff = false ∧ node.entry.st ≠ .discharge := by decide

theorem witness_KeepSupply : (0 : Byte).toInt = 0 ∧ (60 : Byte).toInt ≤ 60 ∧ (255 : Byte).toInt < 0 ∧ 60 < (61 : Byte).toInt ∧
    node.keep.out = false ∧ node.keep.err = false ∧ fieldN ((setP 0 0x1800 0 0x0bb80a01 node).pA 0 0x1800 0) 0 2 ≠ 0 ∧
    ({ node with powered := false } : State).powered = false := by decide

theorem witness_NodeResets : node.powered = true ∧
    ({ node with fn := { node.fn with nodeReset := true } } : State).fn.nodeReset = true ∧ node.fn.class4 = false ∧
    node.fn.nodeReset = false ∧ node.entry.vauxok = false ∧ node.entry.supplyUp = false ∧
    (entryAs fun e => { e with vauxok := true }).entry.vauxok = true ∧ ({ node with powered := false } : State).powered = false ∧
    node.nstopLow = false ∧ (∀ b : BankId, b.val < 6 → node.nfltLow.getLsbD b.val = false) ∧
    (let s : State := { node with powered := false, nstopLow := true }
     s.powered = false ∧ s.nstopLow = true ∧ s.present 0 = true ∧ s.banks[(0 : BankId)].st ≠ .unpowered) := by
  decide

theorem witness_ReferenceClock : node.refOk = true ∧ node.powered = true ∧ node.fn.class4 = false ∧
    (node.block .node).pend.getLsbD 3 = false ∧ ({ node with refOk := false } : State).refOk = false := by decide +kernel

theorem witness_DebugHaltAndResume : node.boot = 1 ∧ node.nv.fuse = false ∧ (rung 0 2 0 0 [] node).mbx[(0 : MbId)].phase = .rung ∧
    ({ node with boot := 3, fn := { node.fn with nmiHeld := true } } : State).debugHalted = true ∧ node.debugHalted = false ∧
    (let s : State := { node.modMb 0 fun x => { x with phase := .ended 2 [7] } with boot := 3 }
     s.debugHalted = true ∧ s.noReset = true ∧ s.mbx[(0 : MbId)].phase = .ended 2 [7]) ∧
    ({ node with nv := { node.nv with fuse := true } } : State).nv.fuse = true := by decide

theorem witness_FaultReactions : ({ node with fn := { node.fn with nmiDue := true } } : State).fn.nmiDue = true ∧
    node.fn.minT + node.units < 20 * node.pA 0 0x1200 0 ∧
    (let s : State := { node with fn := { node.fn with minRun := true, relPend := true, minT := 20 * node.pA 0 0x1200 0 } }
     20 * s.pA 0 0x1200 0 ≤ s.fn.minT + s.units ∧ s.fn.minRun = true ∧ s.fn.relPend = true ∧ s.fn.class4 = false) ∧
    ({ node with fn := { node.fn with class4 := true } } : State).fn.class4 = true ∧
    ({ node with fn := { node.fn with blockResets := [.kiln] } } : State).fn.blockResets = [BlockId.kiln] ∧
    ∀ m : MbId, node.mbx[m].phase = .idle := by decide

/-! ## Witnesses: store, firmware, sequencer, counters -/

theorem witness_StoreCommands : (rung 0 2 0 0x340 [] node).takes 0 2 0x340 .node = true ∧
    (rung 0 2 0 0x349 [23] node).takes 0 2 0x349 .node = true ∧
    (rung 0 2 0 0x34a [0xf00] node).takes 0 2 0x34a .node = true ∧ (rung 0 2 0 0x34a [0x1fc] node).takes 0 2 0x34a .node = true ∧
    0xfc + 4 * 1 ≤ 256 ∧ 256 < 0xfc + 4 * 2 ∧
    (rung 0 2 0 0x34b [0x46555345] (open_ node)).takes 0 2 0x34b .node = true ∧ (open_ node).kiln.open_ = true ∧
    (rung 0 2 0 0x34b [0] node).takes 0 2 0x34b .node = true ∧ (rung 0 2 0 0x348 [3] (open_ node)).takes 0 2 0x348 .node = true ∧
    (∀ n : AxisId, node.axes[n].eng.st = .off) ∧ (rung 0 2 0 0x348 [3] (axisAs id)).takes 0 2 0x348 .node = true ∧
    (axisAs id).axisPresent 0 = true := by decide

/-- An image of 8 body bytes of 0 whose hash is that of FIPS 180-4. -/
def image : List Byte :=
  [0x42, 0x41, 0x50, 0x52, 1, 0, 1, 0, 8, 0, 0, 0] ++ List.replicate 52 0 ++
  [0xaf, 0x55, 0x70, 0xf5, 0xa1, 0x81, 0x0b, 0x7a, 0xf7, 0x8c, 0xaf, 0x4b, 0xc7, 0x0a, 0x66, 0x0f, 0x0d, 0xf5, 0x1e, 0x42, 0xba, 0xf9, 0x1d, 0x4d, 0xe5, 0xb2, 0x32, 0x8d, 0xe0, 0xe8, 0x3d, 0xfc] ++ List.replicate 104 0

/-- A slot that holds it. -/
def imageSlot (st : SlotSt) : FwSlot := { st := st, len := 200, bytes := putBytes 0 image [], hash := ({ bytes := putBytes 0 image [] } : FwSlot).bodyHash }

/-- A node with the write window open and that slot as A. -/
def loaded (st : SlotSt) : State := open_ { node with nv := { node.nv with slots := node.nv.slots.set 0 (imageSlot st) } }

theorem test_sha256_abc : sha256 [0x61, 0x62, 0x63] =
    0xba7816bf8f01cfea414140de5dae2223b00361a396177a9cb410ff61f20015ad#256 := by decide +kernel

theorem test_image_verifies : (imageSlot .loading).check 0 true = 0 ∧ (imageSlot .loading).check 0 false = 6 ∧
    (imageSlot .loading).check 1 true = 4 := by decide +kernel

theorem witness_FirmwareLoads : (open_ node).kiln.open_ = true ∧ (rung 0 2 0 0x341 [0, 200] (open_ node)).takes 0 2 0x341 .node = true ∧
    node.nv.src ≠ slotSrc false ∧ node.nv.trial ≠ some false ∧
    ({ node with nv := { node.nv with src := .slotA } } : State).nv.src = slotSrc false ∧
    (let s := open_ { node with nv := { node.nv with loading := some false, slots := node.nv.slots.set 0 { len := 200, st := .loading } } }
     (rung 0 2 0 0x342 [196, 0] s).takes 0 2 0x342 .node = true ∧ 196 < s.nv.loadLen ∧ 196 + 4 * (2 - 1) ≤ s.nv.loadLen ∧
     (rung 0 2 0 0x343 [0] s).takes 0 2 0x343 .node = true) ∧
    (rung 0 2 0 0x342 [0, 0] (open_ node)).takes 0 2 0x342 .node = true ∧ (rung 0 2 0 0x343 [0] (open_ node)).takes 0 2 0x343 .node = true ∧
    (rung 0 2 0 0x344 [0] (loaded .loading)).takes 0 2 0x344 .node = true ∧
    (open_ node).nv.slots[0].check 0 true ≠ 0 := by decide +kernel

theorem witness_FirmwareSwaps : (rung 0 2 0 0x345 [0] (loaded .valid)).takes 0 2 0x345 .node = true ∧
    (loaded .valid).nv.slots[0].st = .valid ∧ (loaded .valid).nv.src ≠ slotSrc false ∧ (loaded .valid).boot = 1 ∧
    (rung 0 2 0 0x345 [0] { loaded .valid with boot := 0 }).takes 0 2 0x345 .node = true ∧
    (rung 0 2 0 0x345 [1] (loaded .valid)).takes 0 2 0x345 .node = true ∧ (loaded .valid).nv.slots[1].st ≠ .valid ∧
    (rung 0 2 0 0x346 [] { loaded .valid with nv := { (loaded .valid).nv with trial := some false } }).takes 0 2 0x346 .node = true ∧
    (rung 0 2 0 0x346 [] (loaded .valid)).takes 0 2 0x346 .node = true ∧
    (rung 0 2 0 0x347 [0x10002, 0] (loaded .valid)).takes 0 2 0x347 .node = true ∧
    (rung 0 2 0 0x347 [0x10002, 0] node).takes 0 2 0x347 .node = true ∧ node.kiln.open_ = false := by decide +kernel

theorem witness_BootSequence : State.reset.powered = true ∧ State.reset.refOk = true ∧ State.reset.boot = 0 ∧
    State.reset.link.setUp = false ∧ State.reset.fn.class4 = false ∧ State.reset.nv.trial = none ∧ State.reset.nv.bootsrc = 0 ∧
    State.reset.nv.active = false ∧
    (let s : State := { State.reset with nv := { State.reset.nv with slots := State.reset.nv.slots.set 0 (imageSlot .valid) } }
     s.nv.slots[0].st = .valid ∧ s.nv.slots[0].check s.nv.minroll true = 0) ∧
    (let s : State := { State.reset with link := { State.reset.link with setUp := true }, nv := { State.reset.nv with chosen := some .slotA } }
     s.nv.chosen = some .slotA ∧ s.link.setUp = true ∧ s.nv.sets[0].blank = true ∧ s.nv.sets[1].blank = true ∧
     (∀ m : MbId, s.mbx[m].phase = .idle) ∧ s.applyRestored.boot = 0 ∧ s.restoreConfig.applyRestored.boot = 0 ∧
     s.keep.klost = false) ∧
    ({ State.reset with fn := { State.reset.fn with class4 := true } } : State).fn.class4 = true ∧
    ({ State.reset with nv := { State.reset.nv with trial := some true } } : State).nv.trial = some true := by decide +kernel

theorem witness_StoreWrites :
    (let s : State := { node.modMb 0 fun x => { x with phase := .waiting .store } with nv := { node.nv with stores := [⟨0, {}⟩] } }
     s.nv.stores = [⟨0, {}⟩] ∧ s.noReset = true ∧ s.endsNow 0 = true ∧ (s.block .nvStore).pend.getLsbD 2 = false ∧
     ({ s with boot := 3 } : State).debugHalted = true ∧ s.mbx[(0 : MbId)].phase = .waiting .store) ∧
    (let s : State := { node with nv := { node.nv with ringDue := [(0, true, false, 5)] } }
     s.kiln.open_ = false ∧ (open_ s).kiln.open_ = true ∧ (open_ s).nv.gapPend = false ∧
     ({ open_ s with nv := { s.nv with gapPend := true } } : State).nv.gapPend = true) := by decide +kernel

theorem witness_LiveSwap :
    (let s : State := { loaded .valid with nv := { (loaded .valid).nv with swap := some ⟨false, false, false, none⟩ } }
     s.nv.swap = some ⟨false, false, false, none⟩ ∧ s.boot = 1 ∧ (s.waiters fun _ => true) = [] ∧ s.nv.slots[0].st = .valid ∧
     s.nv.slots[0].bodyHash = s.nv.slots[0].hash ∧ (∀ m : MbId, s.mbx[m].phase = .idle) ∧ ({ s with boot := 2 } : State).boot = 2 ∧
     s.nv.slots[1].st ≠ .valid) ∧
    (let s : State := { node with nv := { node.nv with trial := some true, src := .slotB } }
     s.nv.trial = some true ∧ s.boot = 1 ∧ s.nv.swap = none ∧ s.nv.src = slotSrc true ∧
     s.nv.trialT + s.units < 20000 * s.nv.trialTo ∧
     (let u : State := { s with nv := { s.nv with trialT := 20000 * s.nv.trialTo } }
      20000 * u.nv.trialTo ≤ u.nv.trialT + u.units)) ∧
    ((rung 0 2 0 0 [] node).mbx[(0 : MbId)].phase = .rung) ∧
    (node.modMb 0 fun x => { x with phase := .waiting .store }).mbx[(0 : MbId)].phase = .waiting .store := by decide +kernel

/-- The auxiliary sequencer running. -/
def seq (waiting busy : Bool) : State := { node with auxs := { running := true, waiting := waiting, busy := busy } }

theorem witness_Sequencer : (seq true false).auxs.waiting = true ∧ (setP 0 0x6801 0 0x10000000 (seq true false)).strg 0 = 1 ∧
    (seq true false).strg 0 = 0 ∧ (setP 0 0x6801 0 0x30000000 (seq true false)).strg 0 = 3 ∧ node.linked 0 = true ∧
    fieldN (node.pA 0 0x6800 0) 8 3 = 0 ∧ fieldN (node.pA 0 0x6800 0) 7 1 = 0 ∧
    (setP 0 0x6801 0 0x20000000 (seq true false)).strg 0 = 2 ∧
    (seq false false).auxs.running = true ∧ (seq false false).auxs.waiting = false ∧ (seq false false).auxq.dropLast = false ∧
    ({ seq false false with auxq := { dropLast := true } } : State).auxq.dropLast = true ∧
    (seq false false).auxq.dropTick = false ∧ node.auxs.running = false ∧ (seq false true).auxs.busy = true ∧
    (let s : State := setP 0 0x6800 0 0x03e80002 { seq false true with auxq := { en := true, fifo := List.replicate 255 0 } }
     s.auxq.fifo.length < 256 ∧ s.auxs.slot + 1 < s.seqn ∧ (∀ i, i < 4 → fieldN (s.pA 0 0x6901 (2 * i)) 31 1 = 0) ∧
     fieldN (s.pA 0 0x6801 0) 30 2 = 0) := by decide +kernel

theorem witness_Gpio : node.gpio.lvl.getLsbD 3 = false ∧ fieldN (node.pA 0 0x6800 0) 12 4 = 0 ∧ fieldN (node.pA 0 0x6800 0) 11 1 = 0 ∧
    (let s : State := { node with gpio := { node.gpio with due := node.gpio.due.set 3 [⟨480, 480⟩], pulse := 8,
                                                           ends := node.gpio.ends.set 3 100 } }
     s.gpio.due[(3 : PinId)] = [⟨480, 480⟩] ∧ 480 < 24000 * s.units ∧ s.gpio.pulse.getLsbD 3 = true ∧
     s.gpio.ends[(3 : PinId)] ≤ 24000 * s.units ∧ ∀ q ∈ s.gpio.due[(3 : PinId)], s.gpio.ends[(3 : PinId)] < q.start) ∧
    node.gpio.pulse.getLsbD 3 = false ∧ node.gpio.due[(3 : PinId)] = [] := by decide

/-- The aligned pulse of the burr gap: 102,405 passed between 102,400 and 102,410.24 (R190, worked example). -/
theorem test_lagalign : fireStart true 24000 ⟨102405, false⟩ (102400 * oneStep) (102410 * oneStep + 1030792151) = 24000 + 11719 ∧
    fireStart false 24000 ⟨102405, false⟩ 0 0 = 480 ∧ fireStart true 24000 ⟨5, true⟩ 0 0 = 48000 := by decide

theorem witness_Sampling :
    (let s := setP 0 0x1600 0 3 node
     fieldN (s.pA 0 0x1600 0) 0 1 = 1 ∧ s.boot = 1 ∧ fieldN (s.pA 0 0x1600 0) 4 2 = 0 ∧ s.tren = true ∧ 635 + 5 ≤ 640 ∧ 640 < 636 + 5) ∧
    (setP 0 0x1600 0 1 node).tren = false ∧ fieldN ((setP 0 0x1600 0 0x13 node).pA 0 0x1600 0) 4 2 = 1 ∧
    fieldN ((setP 0 0x1600 0 0x23 node).pA 0 0x1600 0) 4 2 = 2 ∧
    ({ node with perf := { node.perf with window := true } } : State).perf.window = true ∧ node.perf.window = false := by decide

theorem witness_KilnSensors :
    (let s := bankAs 0 fun k => { k with kiln := { k.kiln with beyond := k.kiln.beyond.set 1 true, overT := k.kiln.overT.set 1 200 } }
     s.banks[(0 : BankId)].kiln.beyond[(1 : Fin 8)] = true ∧ 200 ≤ s.banks[(0 : BankId)].kiln.overT[(1 : Fin 8)] ∧
     s.banks[(0 : BankId)].kiln.broken.getLsbD 1 = false) ∧ node.banks[(0 : BankId)].kiln.beyond[(0 : Fin 8)] = false ∧
    -550 ≤ (BitVec.ofInt 16 (-550)).toInt ∧ (2000 : Half).toInt ≤ 2000 ∧ 2000 < (2001 : Half).toInt ∧
    (BitVec.ofInt 16 (-551)).toInt < -550 ∧ node.kiln.dieOkRun ≠ 0 := by decide

/-! ## Witnesses: feedback, emulation, memory port, pair -/

/-- Channel 0 in a mode, changed. -/
def channel (mode : Word) (f : FbChan → FbChan) : State := (setP 0 0x5000 0 mode node).modFb 0 f

theorem witness_IncrementalFeedback : ((channel 1 id).fbCfg 0).mode = 1 ∧ ((channel 1 id).fbCfg 0).flen = false ∧
    ((channel 4 id).fbCfg 0).mode = 4 ∧
    (quadPlace true false + 4 - quadPlace false false) % 4 = 1 ∧ (quadPlace false true + 4 - quadPlace false false) % 4 = 3 ∧
    (quadPlace true true + 4 - quadPlace false false) % 4 = 2 ∧
    (let s := channel 2 fun f => { f with a := true, valid := true }
     (s.fbCfg 0).mode = 2 ∧ hallPlace s.fbs[(0 : FbId)].a s.fbs[(0 : FbId)].b s.fbs[(0 : FbId)].z = 0 ∧ s.fbs[(0 : FbId)].valid = true) ∧
    hallPlace false false false = 6 ∧ ((channel 1 id).fbCfg 0).igate = false ∧ (channel 1 id).fbs[(0 : FbId)].idxRef = none ∧
    (let s : State := { channel 1 id with edgeT := 200000 }
     (s.fbCfg 0).mode ≠ 0 ∧ s.fbs[(0 : FbId)].stepAt + 240000 * (s.fbCfg 0).sstill ≤ 12000 * s.edgeT + 12000 * s.units) ∧
    12000 * (channel 1 id).edgeT + 12000 * (channel 1 id).units <
      (channel 1 id).fbs[(0 : FbId)].stepAt + 240000 * ((channel 1 id).fbCfg 0).sstill ∧
    (node.fbCfg 0).mode = 0 := by decide

theorem witness_SerialFeedback : node.nodeP.wf = true ∧ ((channel 3 id).fbCfg 0).mode = 3 ∧ (node.fbCfg 0).mode ≠ 3 ∧
    (channel 3 fun f => { f with req := true }).fbs[(0 : FbId)].req = true ∧
    wordGood ((setP 0 0x5201 0 0x00180001 (channel 3 id)).fbCfg 0) 0 = true ∧
    wordGood ((setP 0 0x5201 0 0x00180001 (channel 3 id)).fbCfg 0) 1 = false ∧
    (channel 3 id).fbs[(0 : FbId)].first = true ∧ (channel 3 id).fbs[(0 : FbId)].badUp = false ∧ node.fbs[(0 : FbId)].req = false := by
  decide

theorem witness_EmulationAndSteps : (node.modEmu 0 fun e => { e with driven := true }).emus[(0 : EmuId)].driven = true ∧
    (∀ i : Fin 3, node.pS 0 (0x5800 + i.val) 0 = node.pA 0 (0x5800 + i.val) 0) ∧ node.emus[(0 : EmuId)].driven = false ∧
    node.axisPresent 0 = true ∧ activeEdge (node.followCfg 0).edgeSel true = true ∧
    activeEdge (node.followCfg 0).edgeSel false = false := by decide

theorem witness_BufferCommands : (rung 0 2 0x93 0x300 [0, 0, 8] node).takes 0 2 0x300 .memPort = true ∧
    formatOk (fieldN (node.pA 0 0x7000 0) 16 2) 0 = true ∧ formatOk (fieldN (node.pA 0 0x7000 0) 16 2) 0x00c00000 = false ∧
    (rung 0 2 0x93 0x300 [0x00c00000, 0, 8] node).takes 0 2 0x300 .memPort = true ∧
    (let w : Word := BitVec.ofNat 32 (4092 * 32768 + 32)
     fieldN w.toNat 15 12 % 4 = 0 ∧ fieldN w.toNat 15 12 + (fieldN w.toNat 0 15 + 7) / 8 ≤ 4096) ∧
    (rung 0 2 0x93 0x301 [0xffc, 1] node).takes 0 2 0x301 .memPort = true ∧ node.xbufHeld = false ∧ 0xffc + 4 * 1 ≤ 4096 ∧
    (rung 0 2 0x93 0x302 [0x10000ffc] node).takes 0 2 0x302 .memPort = true ∧
    (rung 0 2 0x93 0x302 [0x10000002] node).takes 0 2 0x302 .memPort = true ∧
    (let s := node.modMb 1 fun x => { x with phase := .waiting .xfer }
     s.xbufHeld = true ∧ (rung 0 2 0x93 0x301 [0xffc, 1] s).takes 0 2 0x301 .memPort = true ∧
     (rung 0 2 0x93 0x302 [0x10000ffc] s).takes 0 2 0x302 .memPort = true) := by decide

theorem witness_BufferReadsBack : Memory.wf 0 [] = true ∧ Memory.wf 0 (putBytes 4095 [1] []) = true := by decide

/-- A node with the mapped window enabled. -/
def windowed : State := setP 0 0x7100 0 1 node

theorem witness_ProgramsStart : windowed.xwen = true ∧ windowed.mem.wpage = none ∧ windowed.mem.runs = [] ∧ windowed.mem.opRuns = false ∧
    (open_ windowed).kiln.open_ = true ∧ windowed.kiln.open_ = false ∧ windowed.mem.refused = false ∧
    (rung 0 2 0x93 0x303 [0, 0x10000000] windowed).takes 0 2 0x303 .memPort = true ∧
    fieldN (0x10000000 : Word).toNat 16 13 = 4096 ∧ windowed.inWindow 0 4096 = true ∧
    (rung 0 2 0x93 0x304 [0, 0] windowed).takes 0 2 0x304 .memPort = true ∧ windowed.inWindow 0 (eraseSize 0) = true ∧
    (let s : State := { windowed with mem := { windowed.mem with runs := [⟨1, 0, 0, 1, 0, none, true⟩], busy := #v[some ⟨0, [], none, 0, none, 0, 0⟩, none, none, none] } }
     s.mem.runs ≠ [] ∧ s.mem.opRuns = true ∧ (rung 0 2 0x93 0x303 [0, 0x10000000] s).takes 0 2 0x303 .memPort = true) := by decide

theorem witness_MappedWindow : node.xwen = false ∧ windowed.xwen = true ∧ windowed.mem.wpage = none ∧ windowed.mem.readWait = [] ∧
    (let s : State := { windowed with mem := { windowed.mem with lines := [(0, List.replicate 32 7)] } }
     s.mem.line? (s.extOf 0) = some (List.replicate 32 7)) ∧
    windowed.mem.line? (windowed.extOf 0) = none ∧ windowed.mem.filling (windowed.extOf 0) = false ∧
    (let s : State := { windowed with mem := { windowed.mem with wpage := some 0 } }
     s.mem.wpage = some 0 ∧ (open_ s).kiln.open_ = true ∧ s.kiln.open_ = false ∧ s.mem.refused = false) := by decide

theorem witness_TransfersRun :
    (let s : State := { node with mem := { node.mem with waiting := [⟨.fill, 0, 0⟩] } }
     s.mem.cur = none ∧ s.mem.choose = some ⟨.fill, 0, 0⟩ ∧ s.mem.wpage = none) ∧ node.mem.cur = none ∧ node.mem.choose = none ∧
    (let s : State := { node with mem := { node.mem with cur := some ⟨.raw 0 0 0 8, 0, 0⟩ } }.modMb 0 fun x =>
       { x with phase := .waiting .xfer }
     s.mem.cur = some ⟨.raw 0 0 0 8, 0, 0⟩ ∧ (0 : Word).getLsbD 4 = false ∧ s.mbx[(0 : MbId)].phase = .waiting .xfer ∧ s.noReset = true) ∧
    (let o : ProgOp := ⟨0, [], none, 0, none, 0, 0⟩
     let s (k : XKind) : State := { node with mem := { node.mem with cur := some ⟨k, 0, 0⟩ } }
     (s (.wren o)).mem.cur = some ⟨.wren o, 0, 0⟩ ∧ (s (.prog o)).mem.cur = some ⟨.prog o, 0, 0⟩ ∧
     (s .fill).mem.cur = some ⟨.fill, 0, 0⟩ ∧ (s .fill).mem.readWait = []) := by decide

theorem witness_PollsAndFetches :
    (let o : ProgOp := ⟨0, [], none, 0, none, 3, 100000⟩
     let s : State := { node with mem := { node.mem with busy := #v[some o, none, none, none] } }
     s.mem.busy[(0 : BitVec 2).toNat] = some o ∧ (∀ c : Fin 4, c ≠ 0 → s.mem.busy[c] = none) ∧ s.opLimit o ≤ o.t ∧ o.mb = none ∧
     s.mem.runs = [] ∧ s.mem.readWait = []) ∧ (∀ c : Fin 4, node.mem.busy[c] = none) ∧
    (let f : Feed := ⟨0, 1, 0, 1, 0, false, false⟩
     let s := streaming { st := some .open_, feed := some f }
     s.axes[(0 : AxisId)].str.fetchDue (s.followCfg 0).squota = some 1 ∧ s.axes[(0 : AxisId)].str.feed = some f ∧ s.mem.wpage = none ∧
     s.feedAddr f + 8 * 1 ≤ 4294967296 ∧
     (let u : State := { s with mem := { s.mem with waiting := [⟨.fetch 0 1, 0, 0⟩] } }
      u.mem.fetchWaits 0 = true ∧ u.axes[(0 : AxisId)].str.feed = some f)) ∧
    node.axes[(0 : AxisId)].str.fetchDue (node.followCfg 0).squota = none := by decide

/-- A node with another pair state. -/
def pairAs (f : Pair → Pair) : State := { node with pair := f node.pair }

theorem witness_Heartbeats : node.part = .g24t ∧ node.powered = true ∧ node.refOk = true ∧
    (pairAs fun p => { p with counted := true }).pair.counted = true ∧ node.pair.counted = false ∧ node.pair.hbmiss = 0 ∧
    (pairAs fun p => { p with hbmiss := 2 }).pair.hbmiss = 2 ∧ node.takeen = false := by decide

theorem witness_TakeoverTakesBanks :
    (let s := setP 0 0x1900 0 1 (pairAs fun p => { p with hbmiss := 2, reports := some (Vector.replicate 24 (report 5 1)) })
     s.part = .g24t ∧ s.pair.counted = false ∧ s.pair.hbmiss = 2 ∧ s.takeen = true ∧ s.links = true ∧ s.pair.carry = 0 ∧
     s.takeable 0x20 = [5] ∧ s.pair.reports = some (Vector.replicate 24 (report 5 1))) := by decide

theorem witness_HandOver :
    (let s := pairAs fun p => { p with palive := true, pboot := 1, mirror := some (0, [⟨keyOf 0 0x1900 0, 1⟩]) }
     (rung 0 2 0 0x34c [] s).takes 0 2 0x34c .node = true ∧ s.axesCalm ownBanks = true ∧ s.pair.palive = true ∧ s.pair.pboot = 1 ∧
     s.pair.partnerTakes = true ∧ s.pair.carry = 0 ∧ s.pair.handing = none) ∧
    (let s := pairAs fun p => { p with palive := true, pboot := 1, carry := 1, tbanks := 0x3f }
     (rung 0 2 0 0x34d [] s).takes 0 2 0x34d .node = true ∧ s.axesCalm s.carried = true ∧ s.pair.carry = 1) ∧
    (rung 0 2 0 0x34c [] node).takes 0 2 0x34c .node = true ∧ node.pair.palive = false ∧
    (setP 0 0x1900 0 1 node).takeen = true ∧ node.links = true ∧ (pairAs fun p => { p with carry := 2 }).pair.carry = 2 ∧
    State.reset.links = false := by decide

/-! ## Witnesses: host link -/

/-- A node whose host has selected a page. -/
def onPage (page : Byte) : State := { node with link := { node.link with page := page, setUp := true } }

theorem witness_LinkWrites :
    (let s := onPage 0x10
     privileged s.part s.link.page = false ∧ (s.link.begin 0).place 0x0f 5 = some (0x0f, 5, 0xffffffff) ∧
     (heard s 0).accepts (s.link.begin 0).page 0x0f 5 0xffffffff = true ∧
     (heard s 0).accepts (s.link.begin 0).page 0x10 5 0xffffffff = false ∧ (s.link.begin 1).place 0x7f 5 = none) ∧
    privileged .g24t 0xe0 = true ∧ privileged .g24t 0xfd = true ∧ privileged .g24 0xf8 = false ∧
    (let s : State := { onPage 0 with link := { (onPage 0).link with posted := [⟨0x10, 0, 5, 0xffffffff⟩] } }
     s.link.posted.find? (fun q => q.page = 0x10) = some ⟨0x10, 0, 5, 0xffffffff⟩ ∧ s.regAt 0x10 0 = .cmd 0 0 ∧
     (∀ p ∈ s.link.posted, p.page ≠ 0x11)) ∧
    node.regAt 0x01 0x08 = .ie 0 ∧ node.regAt 0x20 0x11 = .fen (.axis 0) ∧ node.regAt 0x20 0x0b = .cmpint 0 ∧
    node.regAt 0x62 4 = .kpstat ∧ node.regAt 0x62 5 = .nothing := by decide

theorem witness_NodeRegisterWrites : pageQuiet (onPage 0) 0 ∧ pageQuiet (onPage 1) 1 ∧
    (0x22 : Word).extractLsb' 4 2 = 2 ∧ (0x22 : Word).extractLsb' 0 2 = 2 ∧ (0x33 : Word).extractLsb' 0 2 = 3 ∧
    node.present 0 = true ∧ node.linked 0 = true ∧ (bankAs 5 fun k => { k with view := .linking }).linked 5 = false ∧
    (let s : State := { onPage 1 with fn := { node.fn with nerrOn := true, minRun := true } }
     s.fn.class4 = false ∧ s.fn.nerrOn = true) ∧ node.fn.nerrOn = false := by unfold pageQuiet; decide

theorem witness_FaultRegisterWrites : pageQuiet (onPage 0x20) 0x20 ∧ (onPage 0x20).regAt 0x20 0x13 = .fack (.axis 0) ∧
    (onPage 0x20).regAt 0x20 0x12 = .frx (.axis 0) ∧ (onPage 0x20).regAt 0x20 0 = .pos 0 false := by unfold pageQuiet; decide

theorem witness_CodesAreClamped : (8 * 0 + 5, 3) ∈ BlockKind.sources .g24t .bank ∧ (8 * 3 + 7, 2) ∈ BlockKind.sources .g8 .axis := by
  decide

theorem witness_MailboxRings : pageQuiet (onPage 0x10) (BitVec.ofNat 8 (0x10 + (0 : MbId).val)) ∧
    (onPage 0x10).mbx[(0 : MbId)].phase = .idle ∧ (rung 0 2 0 0 [] (onPage 0x10)).mbx[(0 : MbId)].phase ≠ .idle ∧
    (0x101 : Word).getLsbD 0 = true := by unfold pageQuiet; decide

theorem witness_WideRegisters : pageQuiet (onPage 0x20) 0x20 ∧ privileged .g24t 0x20 = false ∧ (onPage 0x20).link.setUp = true ∧
    (onPage 0x20).regAt 0x20 0 = .pos 0 false ∧ (onPage 0x20).regAt 0x20 1 = .pos 0 true ∧
    validPos ((onPage 0x20).held 0x20 0) 0xffff8000 = true ∧ validPos ((onPage 0x20).held 0x20 0) 0xffff7fff = false := by
  unfold pageQuiet; decide

theorem witness_LinkReads : (onPage 0).link.page = 0 ∧ (onPage 0).link.sframe = false ∧ privileged (onPage 0).part 0 = false ∧
    (onPage 0).link.posted = [] ∧ (onPage 0x20).link.page ≠ 0 ∧ 0x7e < (0x7e : BitVec 7).toNat + 1 ∧
    (onPage 0).link.sframeF = false ∧ (onPage 0).link.ready = true ∧ (onPage 0).link.setUp = true ∧
    privileged .g24t (onPage 0x45).link.page = false ∧ (onPage 0x45).link.sframe = false ∧
    ({ onPage 0 with link := { (onPage 0).link with sframe := true } } : State).link.sframe = true ∧
    (0x7c : BitVec 7).toNat < 0x7e ∧ (0x7c : BitVec 7).toNat % 2 = 0 ∧ node.powered = true ∧
    (let s : State := { onPage 0 with link := { (onPage 0).link with posted := [⟨0, 6, 0, 0⟩] } }
     s.link.page = 0 ∧ s.link.posted ≠ []) ∧
    (0x40 ≤ (onPage 0x45).link.page.toNat ∧ (onPage 0x45).link.page.toNat ≤ 0x45) := by decide

theorem witness_QueueWindows : queueOf .g24t 0xf0 = some (.bank 0) ∧ node.present 0 = true ∧
    ((onPage 0xf0).modBank 0 fun k => { k with queue := { k.queue with en := true, fifo := [7] } }).banks[(0 : BankId)].queue.en = true ∧
    node.banks[(0 : BankId)].queue.en = false ∧ (setP 0 0x1600 0 3 (onPage 0xf7)).traceOn = true ∧ node.traceOn = false ∧
    privileged .g24t (onPage 0xe0).link.page = true ∧ (onPage 0xf6).link.page = 0xf6 ∧ (onPage 0xf6).powered = true ∧
    ({ node with powered := false } : State).powered = false ∧
    windowOf 0xe3 = some 3 ∧ (streaming { st := some .open_, window := some 3 }).windowStream 3 = some 0 ∧
    node.windowStream 3 = none := by decide

theorem witness_StreamWindow :
    (let s : State := { streaming { st := some .open_, window := some 3, half := some 5, fifo := List.replicate 511 ⟨0, 1, false⟩ } with
       link := { node.link with page := 0xe3 } }
     windowOf s.link.page = some 3 ∧ s.windowStream 3 = some 0 ∧ s.axes[(0 : AxisId)].str.half = some 5 ∧
     s.axes[(0 : AxisId)].str.fifo.length < (s.followCfg 0).squota) ∧
    (pointOf 5 0x00010000).dur ≠ 0 ∧ (pointOf 5 0x8000).dur = 0 ∧ (node.followCfg 0).squota ≤ 512 := by decide +kernel

/-! ## Witnesses: ticks, banks, legs, periods -/

theorem witness_TickEdges : node.powered = true ∧ node.refOk = true ∧ node.noReset = true ∧ node.pair.handing = none ∧
    ({ node with refOk := false } : State).refOk = false ∧ node.axisPresent 24 = false ∧ node.nodeP.wf = true ∧
    keyAcc (keyOf 0 0x3000 0) = .tick ∧ node.sendsTo 0 = true ∧ (bankAs 0 fun k => { k with view := .unpowered }).sendsTo 0 = false := by decide

theorem witness_AxisTimers :
    (let s := axisAs fun a => { a with cur := { a.cur with holdT := 4000, i2tDue := true, lock := true, acct := 1800000000000 } }
     s.axes[(0 : AxisId)].eng.st = .standby ∧ 20 * (s.curCfg 0).holddly ≤ s.axes[(0 : AxisId)].cur.holdT + s.units ∧
     s.axes[(0 : AxisId)].cur.i2tDue = true ∧ s.axes[(0 : AxisId)].cur.lock = true ∧ 1800000000000 ≤ s.axes[(0 : AxisId)].cur.acct) ∧
    node.axes[(0 : AxisId)].eng.st ≠ .standby ∧ node.axes[(0 : AxisId)].cur.i2tDue = false ∧
    (axisAs fun a => { a with legn := { a.legn with energT := 200000 } }).axes[(0 : AxisId)].legn.energT = 200000 ∧
    node.linked (bankOf 0) = true ∧ node.axes[(0 : AxisId)].legn.energT < 200000 ∧
    (let s := setP 0 0x3500 0 0x10008 (axisAs fun a => { a with obn := { a.obn with blindRun := 21 } })
     fieldN (s.pA 0 0x3500 0) 16 16 = 1 ∧ 20 * 1 < s.axes[(0 : AxisId)].obn.blindRun ∧ s.axes[(0 : AxisId)].obn.blindUp = false) ∧
    fieldN (node.pA 0 0x3500 0) 16 16 = 0 := by decide

theorem witness_Homing :
    (let s := axisAs fun a => { a with eng := { a.eng with st := .frozen }, obn := { a.obn with
       hstate := .contact, hread := some (0, 0), hwait := 1, hgo := true } }
     s.axes[(0 : AxisId)].obn.hread = some (0, 0) ∧ s.axes[(0 : AxisId)].obn.hstate = .contact ∧
     1 ≤ s.axes[(0 : AxisId)].obn.hwait ∧ s.axes[(0 : AxisId)].obn.hgo = true ∧ s.axes[(0 : AxisId)].eng.st = .frozen) ∧
    node.axes[(0 : AxisId)].obn.hread = none ∧ node.tick % 1024 = 0 ∧ ({ node with tick := 1023 } : State).tick % 1024 ≠ 0 ∧
    node.present 0 = true ∧ node.linked 0 = true := by decide

theorem witness_ProofScans : ({ node with tick := 21 } : State).tick % 20 ≠ 0 ∧ ({ node with tick := 20 } : State).tick % 20 = 0 ∧
    node.commits = [] ∧ node.noReset = true ∧ ({ ref := 5, state := .sealed } : Proof).state ≠ .open_ ∧
    ({} : Proof).mis = false ∧ ({} : Proof).told = none := by decide

/-- A packet without operations. -/
def packet (tick : Half) : DPacket := ⟨tick, 0, Vector.replicate 4 {}, false, 0, false, false, 0, []⟩

theorem witness_DownstreamPackets :
    (let s := bankAs 0 fun k => { k with dpkt := some (packet 5) }
     s.banks[(0 : BankId)].dpkt = some (packet 5) ∧ s.banks[(0 : BankId)].clocked = true ∧ s.banks[(0 : BankId)].lock = true ∧
     s.banks[(0 : BankId)].hold = false ∧ (packet 5).safe = false ∧ (packet 5).batch = false ∧ (packet 5).svc = 0 ∧ (packet 5).ops = []) ∧
    (bankAs 0 fun k => { k with dpkt := some (packet 5), hold := true }).banks[(0 : BankId)].hold = true ∧
    (bankAs 0 fun k => { k with dpkt := some { packet 5 with safe := true } }).banks[(0 : BankId)].dpkt = some { packet 5 with safe := true } ∧
    (bankAs 0 fun k => { k with dpkt := some (packet 5), lock := false }).banks[(0 : BankId)].lock = false ∧
    node.banks[(0 : BankId)].dpkt = none ∧ (bankAs 0 fun k => { k with dpkt := some (packet 5), badDn := 1 }).banks[(0 : BankId)].badDn = 1 := by
  decide

theorem witness_BankWrites : node.bankP.wf = true ∧ keyAcc (keyOf 0 0x2000 0) = .period ∧ keyAcc (keyOf 0 0x3410 0) ≠ .period := by decide

/-- An upstream packet of a bank in RUN. -/
def upstream (ack : Byte) (ev : List BankEvent) : UPacket :=
  ⟨5, ack, { st := .run, lock := true, flt := 0x400 }, 0, 0, false, ev, Vector.replicate 4 (0, 0x10, 0), [], []⟩

theorem witness_UpstreamLink :
    (let s := bankAs 0 fun k => { k with upkt := some (upstream 5 [.axisOff 0, .fault (.bank 0) 10]), badUp := 1 }
     s.banks[(0 : BankId)].upkt = some (upstream 5 [.axisOff 0, .fault (.bank 0) 10]) ∧ s.present 0 = true ∧ s.links = true ∧
     s.noReset = true ∧ (classOf s.part (.bank 0) 10).isSome = true ∧ s.banks[(0 : BankId)].badUp = 1 ∧
     (upstream 5 []).regs.flt.getLsbD 10 = true) ∧
    (let e : OpEntry := ⟨.tries 0, 0, some 5, some 0, 0, false, []⟩
     let s : State := { (bankAs 0 fun k => { k with upkt := some (upstream 5 []), ops := [e] }).modMb 0 fun x => { x with phase := .waiting (.bank 0 []) } with tick := 261 }
     s.banks[(0 : BankId)].upkt = some (upstream 5 []) ∧ s.present 0 = true ∧ s.links = true ∧ s.noReset = true ∧
     (upstream 5 []).broken = s.kiln.broken[(0 : BankId)] ∧ (upstream 5 []).subx = s.kiln.subx[(0 : BankId)] ∧
     s.banks[(0 : BankId)].view = .run ∧ s.banks[(0 : BankId)].ops = [e] ∧ e.op.returns = false ∧ e.slots = 0 ∧
     s.debugHalted = false ∧ 5 ≤ tickBack s.tick 256 (5 : Byte).toNat ∧
     (∀ p : Pos, (upstream 5 []).obs[p] = (let o := s.axes[axisAt 0 p].obn; (o.la, o.ra, o.tqw))) ∧
     s.mbx[(0 : MbId)].phase = .waiting (.bank 0 []) ∧ s.banks[(0 : BankId)].sentSoft = none) ∧
    node.banks[(0 : BankId)].upkt = none := by decide

theorem witness_BankTicks : (bankAs 0 fun k => { k with st := .linking }).banks[(0 : BankId)].clocked = false ∧
    node.banks[(0 : BankId)].clocked = true ∧ (bankAs 0 fun k => { k with recv := some (packet 5) }).banks[(0 : BankId)].recv = some (packet 5) ∧
    node.banks[(0 : BankId)].recv = none ∧ (bankAs 0 fun k => { k with st := .orphan, lock := false }).banks[(0 : BankId)].st = .orphan ∧
    node.banks[(0 : BankId)].sp[(0 : Pos)].cur.getLsbD 0 = false := by decide

theorem witness_LinkLosses : (bankAs 0 fun k => { k with noDn := 3 }).banks[(0 : BankId)].noDn = 3 ∧
    (bankAs 0 fun k => { k with noUp := 3 }).linked 0 = true ∧ (bankAs 0 fun k => { k with noUp := 3 }).banks[(0 : BankId)].noUp = 3 ∧
    node.noReset = true ∧ node.debugHalted = false ∧ node.banks[(0 : BankId)].gone = false ∧ node.banks[(0 : BankId)].powered = true ∧
    node.links = true ∧ node.present 0 = true ∧ ((bankAs 0 fun k => { k with st := .orphan }).banks[(0 : BankId)].st = .orphan ∧
      ∀ p : Pos, node.banks[(0 : BankId)].sp[p].vff = 0 ∧ node.axes[axisAt 0 p].legs.rel = .none) := by decide

theorem witness_BankStates : State.reset.banks[(0 : BankId)].st = .unpowered ∧ State.reset.present 0 = true ∧ State.reset.attached 0 = true ∧
    State.reset.safeCauses 0 = 0 ∧ ({ State.reset with powered := true, nstopLow := true } : State).safeCauses 0 = 1 ∧
    (let s := bankAs 0 fun k => { k with st := .linking, view := .linking }
     s.banks[(0 : BankId)].st = .linking ∧ s.links = true ∧ s.present 0 = true ∧ s.safeCauses 0 = 0 ∧ s.banks[(0 : BankId)].safe.lat = 0) ∧
    (let s := bankAs 0 fun k => { k with st := .safe, view := .safe, reinit := true }
     s.banks[(0 : BankId)].reinit = true ∧ s.banks[(0 : BankId)].mir.lat = 0 ∧ s.banks[(0 : BankId)].safe.lat = 0 ∧
     s.banks[(0 : BankId)].lock = true ∧ s.links = true ∧ s.present 0 = true ∧ s.safeCauses 0 = 0 ∧
     ∀ p : Pos, s.axes[axisAt 0 p].eng.st = .off) ∧
    node.nodeP.wf = true ∧ node.bankP.wf = true ∧ node.banks[(0 : BankId)].powered = true ∧ node.noReset = true ∧
    keyOfBank 0 (keyOf 0 0x3410 0) = true ∧ copiedToBank 0x3410 = true ∧
    (∀ p : Pos, (bankAs 0 fun k => { k with svc := 2 }).axes[axisAt 0 p].eng.serviceReady true = true) := by decide

theorem witness_SafeInputs : node.nstopLow = false ∧ node.powered = true ∧ node.nfltLow.getLsbD 0 = false ∧ node.present 0 = true ∧
    node.banks[(0 : BankId)].powered = true ∧ node.banks[(0 : BankId)].safe.clkGone = false ∧
    ({ node with nfltLow := 1 } : State).nfltLow.getLsbD 0 = true ∧ (bankAs 0 fun k => { k with st := .unpowered }).banks[(0 : BankId)].powered = false := by
  decide

/-- Axis 0 with other legs. -/
def legsAs (f : LegsBank → LegsBank) : State := node.modAxis 0 fun a => { a with legs := f a.legs }

theorem witness_LegProtection : node.banks[bankOf 0].powered = true ∧ node.axes[(0 : AxisId)].legs.rel = .none ∧
    node.axes[(0 : AxisId)].legs.latch = false ∧ (legsAs fun l => { l with latch := true }).axes[(0 : AxisId)].legs.latch = true ∧
    (legsAs fun l => { l with rel := .lows }).axes[(0 : AxisId)].legs.rel = .lows ∧ LegFault.dsl.highSide = false ∧
    (legsAs fun l => { l with rel := .highs }).axes[(0 : AxisId)].legs.rel = .highs ∧ LegFault.dsh.highSide = true ∧
    (let s : State := { legsAs (fun l => { l with rel := .lows, latch := true, tries := 3 }) with part := .g16 }
     s.part.retries = true ∧ fieldN (s.bA (bankOf 0).val 0x2101 0) 0 3 ≤ s.axes[(0 : AxisId)].legs.tries.toNat) ∧
    (let s := legsAs fun l => { l with energised := true, cut := Vector.replicate 4 (6000, 12000) }
     s.commandedOn 0 ⟨0, 3000⟩ true = true ∧ s.commandedOn 0 ⟨0, 2999⟩ false = true ∧ s.commandedOn 0 ⟨0, 3000⟩ false = false ∧
     s.axes[(0 : AxisId)].legs.lastHigh ⟨0, 8999⟩ = true ∧ s.axes[(0 : AxisId)].legs.lastHigh ⟨0, 9000⟩ = false) ∧
    (let s := legsAs fun l => { l with rel := .lows, latch := true, held := 1 }
     s.axes[(0 : AxisId)].legs.rel ≠ .none ∧ s.axes[(0 : AxisId)].legs.enRel = false ∧ s.axes[(0 : AxisId)].legs.held.getLsbD 0 = true ∧
     s.axes[(0 : AxisId)].legs.held.getLsbD 1 = false) ∧
    (let s := legsAs fun l => { l with rpend := true, waiting := true, waitT := 5100 }
     s.axes[(0 : AxisId)].legs.rpend = true ∧ s.axes[(0 : AxisId)].legs.waiting = true ∧ s.banks[bankOf 0].st = .run ∧
     20 * fieldN (s.bA 0 0x2101 0) 8 8 ≤ s.axes[(0 : AxisId)].legs.waitT + s.units) ∧
    node.axes[(0 : AxisId)].legs.waitT + node.units < 20 * fieldN (node.bA 0 0x2101 0) 8 8 := by decide

theorem witness_BankAndPhaseFaults : node.banks[(0 : BankId)].powered = true ∧
    (∀ p : Pos, node.axes[axisAt 0 p].legs.rel = .none ∧ node.axes[axisAt 0 p].legs.latch = false) ∧
    (let s := node.modAxis 0 fun a => { a with loopA := { a.loopA with satRun := 17, trkRun := 64, openRun := 64 } }
     16 < (s.axes[(0 : AxisId)].loop false).satRun ∧ (s.axes[(0 : AxisId)].loop false).satUp = false ∧
     (s.loopCfg 0 false).trkcnt ≤ (s.axes[(0 : AxisId)].loop false).trkRun ∧ (s.axes[(0 : AxisId)].loop false).trkUp = false ∧
     64 ≤ (s.axes[(0 : AxisId)].loop false).openRun ∧ (s.axes[(0 : AxisId)].loop false).openUp = false) ∧
    (node.axes[(0 : AxisId)].loop false).satRun ≤ 16 ∧ node.banks[(0 : BankId)].clocked = true ∧
    phaseKey 0 (keyOf 0 0x4000 0) = true := by decide

theorem witness_SwapsAndCalibration : node.banks[(0 : BankId)].swap = none ∧
    (bankAs 0 fun k => { k with swap := some ⟨3, true, false, 0, 0⟩ }).banks[(0 : BankId)].swap = some ⟨3, true, false, 0, 0⟩ ∧
    (bankAs 0 fun k => { k with swap := some ⟨3, true, true, 0, 0⟩ }).banks[(0 : BankId)].swap = some ⟨3, true, true, 0, 0⟩ ∧
    (bankAs 0 fun k => { k with cal := true }).banks[(0 : BankId)].cal = true ∧ node.banks[(0 : BankId)].cal = false := by decide

theorem witness_PeriodStarts : node.banks[(0 : BankId)].clocked = true ∧ node.banks[(0 : BankId)].releaseDue = false ∧
    node.banks[(0 : BankId)].pwm.started = false ∧
    (bankAs 0 fun k => { k with pwm := { k.pwm with started := true } }).banks[(0 : BankId)].pwm.changes = [] ∧
    (bankAs 0 fun k => { k with st := .safe, releaseDue := true }).safeCauses 0 = 0 ∧
    (legsAs fun l => { l with latch := true }).axes[axisAt 0 0].legs.latch = true := by decide

theorem witness_OnTimes : 0 < 191999 ∧ 191999 < 12000 * 16 ∧ dutyRank 15 = 15 := by decide

theorem witness_MinimumPulses : (0x30 : Word).extractLsb' 0 9 = 48 ∧ 47 < 48 ∧ 11953 < 12000 ∧ 12000 - 11953 < 48 ∧ 48 ≤ 12000 - 11952 ∧
    (0x80000030 : Word).getLsbD 31 = true := by decide

theorem witness_TriggerEvents :
    (let s := bankAs 0 fun k => { k with pwm := { k.pwm with started := true, sel := #v[1, 0, 0, 0] } }
     s.banks[(0 : BankId)].clocked = true ∧ s.triggerAt 0 0 = some (6000, false) ∧
     ({ s.banks[(0 : BankId)] with lastTrig := 6000 } : Bank).thermalInput = 0) ∧
    ({ (node.banks[(0 : BankId)]) with swap := some ⟨3, true, false, 0, -42000⟩, lastTrig := 6000 } : Bank).thermalInput = 10 ∧
    (bankAs 0 fun k => { k with pwm := { k.pwm with started := true }, lastTrig := 5809 }).triggerAt 0 0 = some (6000, true) ∧
    node.triggerAt 0 0 = none := by decide

/-! ## Witnesses: the whole machine -/

theorem witness_StepRunsFront : step { node with pending := [.referenceReturn] } = exec .referenceReturn { node with pending := [] } :=
  rfl

theorem witness_QueueUntouched : ∃ t, exec .referenceReturn node = .next t := ⟨_, rfl⟩

theorem witness_StepKeepsCanonical : node.canonical = true ∧ State.reset.canonical = true ∧ ∃ t, step node = .next t :=
  ⟨by decide, by decide, _, rfl⟩

theorem witness_CompletionsShow : (List.replicate 15 (0 : Word)).length ≤ 15 := by decide

theorem witness_RaiseEffects : 31 < 32 ∧ classOf .g24t (.bank 0) 31 = some 2 ∧ (node.block (.bank 0)).fen.getLsbD 31 = true ∧
    ((node.modBlock (.bank 0) fun f => { f with fen := 0 }).block (.bank 0)).fen.getLsbD 31 = false := by decide +kernel

theorem witness_BudgetsFit : 100 < [60, 41].sum ∧ [60, 40].sum ≤ 100 := by decide

/-! ## The spec's worked examples -/

/-- What a mailbox holds after a command: RSP0 and RSP1. -/
def answer (m : MbId) (o : Host.Outcome State Fault Refusal) : Option (Word × Word) :=
  match o with
  | .next u => some (u.mbx[m].rsp[0], u.mbx[m].rsp[1])
  | _ => none

/-- The burr-gap axis of 01_node_and_banks.md: bank offset, angle at position 1,000,000, interpolation in the first
period. -/
theorem test_example_burr_gap : bankOffset 6 3 12000 = 6000 ∧ angleOf (1000000 * 4294967296) = 0x24000000 ∧
    interpolate 0x23d70a3d 0x24000000 0x24000000 0 0 24000 12000 = 0x23eb851e := by decide

/-- The needle valve of 10_pwm.md: legs 8.A1 and 8.A2 in even and odd periods, in DROP and in STRETCH mode. -/
theorem test_example_needle_valve : onTime 191800 0 12000 = 11988 ∧ onTime 191800 1 12000 = 11987 ∧ onTime 200 0 12000 = 13 ∧
    onTime 200 1 12000 = 12 ∧ minPulse 0x30 11988 12000 = (12000, true) ∧ minPulse 0x80000030 11987 12000 = (11952, true) ∧
    minPulse 0x30 12 12000 = (0, true) ∧ minPulse 0x80000030 13 12000 = (48, true) ∧ onTime 760 1 12000 = 47 ∧
    minPulse 0x30 47 12000 = (0, true) ∧ minPulse 0x30 48 12000 = (48, false) := by decide

/-- Both tampers enabled from MB1 (05_commands_and_parameters.md): RSP0 reads 0x8144_0008, RSP1 shows bits 4 and 5. -/
theorem test_example_enable : answer 1 (exec (.enable 1) (node.modMb 1 fun x => { x with
    copy := (x.copy.set 0 0x82440008).set 1 0x30 |>.set 2 0x30, phase := .rung })) = some (0x81440008, 0x30) := by
  decide +kernel

/-- STREAM_OPEN on a window that serves another valve (05_commands_and_parameters.md): RSP1 reads 0x0001_000D. -/
theorem test_example_window_in_use : answer 2 (exec (.streamOpen 2)
    (rung 2 2 0xa8 0x00b [3] (streaming { st := some .open_, window := some 3 }))) = some (0xc102a00b, 0x1000d) := by
  decide +kernel

end Sys2Proof.Tests
end

section
/-! SUPPORT. A read of a merged store, and stores whose staged values apply (R91, R92). -/
namespace Sys2Proof.Machine

/-! ## Reading a merged store (R91, R92) -/

/-- The keys of a canonical store lie at or above its bound. -/
theorem cellsWf_le_key {α : Type} [DecidableEq α] {d : Nat → α} {c : Nat × α} :
    ∀ {lo : Nat} {l : List (Nat × α)}, cellsWf d lo l = true → c ∈ l → lo ≤ c.1
  | _, [], _, h => absurd h List.not_mem_nil
  | lo, (k, v) :: r, hl, h => by
    simp only [cellsWf, Bool.and_eq_true, decide_eq_true_eq] at hl
    rcases List.mem_cons.mp h with rfl | h
    · exact hl.1.1
    · have := cellsWf_le_key hl.2 h
      omega

/-- A cell of a canonical store is what its key reads. -/
theorem cellGet_of_mem {α : Type} [DecidableEq α] {d : Nat → α} {x v : α} {k : Nat} :
    ∀ {lo : Nat} {l : List (Nat × α)}, cellsWf d lo l = true → (k, v) ∈ l → cellGet x k l = v
  | _, [], _, h => absurd h List.not_mem_nil
  | lo, (k', v') :: r, hl, h => by
    simp only [cellsWf, Bool.and_eq_true, decide_eq_true_eq] at hl
    simp only [cellGet]
    rcases List.mem_cons.mp h with e | h
    · obtain ⟨rfl, rfl⟩ := Prod.mk.inj e
      rw [if_pos rfl]
    · have := cellsWf_le_key hl.2 h
      rw [if_neg (by omega), if_neg (by omega)]
      exact cellGet_of_mem hl.2 h

/-- A key without a cell reads the default. -/
theorem cellGet_of_not_mem {α : Type} {x : α} {k : Nat} :
    ∀ {l : List (Nat × α)}, (∀ v, (k, v) ∉ l) → cellGet x k l = x
  | [], _ => rfl
  | (k', v') :: r, h => by
    have hk : k ≠ k' := fun e => h v' (e ▸ List.mem_cons_self)
    simp only [cellGet, if_neg hk]
    split
    · rfl
    · exact cellGet_of_not_mem fun v hv => h v (List.mem_cons_of_mem _ hv)

/-- A merged store has the cells of both. -/
theorem mem_mergeCells {α : Type} {c : Nat × α} : ∀ {l r : List (Nat × α)}, c ∈ mergeCells l r ↔ c ∈ l ∨ c ∈ r
  | [], r => by simp [mergeCells]
  | a :: l, r => by
    have split : c ∈ r ↔
        c ∈ (r.takeWhile fun q => decide (q.1 ≤ a.1)) ∨ c ∈ r.dropWhile fun q => decide (q.1 ≤ a.1) := by
      rw [← List.mem_append, List.takeWhile_append_dropWhile]
    rw [mergeCells, List.mem_append, List.mem_cons, mem_mergeCells, List.mem_cons, split]
    rw [or_left_comm, or_left_comm (b := c ∈ l), or_assoc]

/-- Two canonical stores with the same cells under a key read the same there. -/
theorem paramGet_congr {l r : List (Nat × Word)} {k : Nat} (hl : cellsWf keyDefault 0 l = true)
    (hr : cellsWf keyDefault 0 r = true) (h : ∀ v, (k, v) ∈ l ↔ (k, v) ∈ r) : paramGet l k = paramGet r k := by
  unfold paramGet
  by_cases hv : ∃ v, (k, v) ∈ l
  · obtain ⟨v, hv⟩ := hv
    rw [cellGet_of_mem hl hv, cellGet_of_mem hr ((h v).mp hv)]
  · have hl' : ∀ v, (k, v) ∉ l := fun v e => hv ⟨v, e⟩
    rw [cellGet_of_not_mem hl', cellGet_of_not_mem fun v e => hl' v ((h v).mpr e)]

/-- A key of the boundary reads its staged value once the boundary is past, any other what it read before (R92). -/
theorem Params.applyWhere_get (f : Nat → Bool) (p : Params) (h : p.wf = true) (key : Nat) :
    paramGet (p.applyWhere f).applied key = if f key then paramGet p.staged key else paramGet p.applied key := by
  have hm := p.applyWhere_wf f h
  simp only [Params.wf, Bool.and_eq_true] at h hm
  have cell (v : Word) : (key, v) ∈ (p.applyWhere f).applied ↔
      (f key = false ∧ (key, v) ∈ p.applied) ∨ (f key = true ∧ (key, v) ∈ p.staged) := by
    simp [Params.applyWhere, mem_mergeCells, and_comm]
  split
  · exact paramGet_congr hm.1 h.2 fun v => by simp [*]
  · exact paramGet_congr hm.1 h.1 fun v => by simp [*]

/-! ## Values that are renewed (R91, R92) -/

/-- q is p with some staged values applied: a key reads there as applied what it read before, or its staged value. -/
structure Params.Renews (p q : Params) : Prop where
  staged : q.staged = p.staged
  wf : p.wf = true → q.wf = true
  applied : p.wf = true → ∀ key, paramGet q.applied key = paramGet p.applied key ∨
    paramGet q.applied key = paramGet p.staged key

theorem Params.Renews.refl (p : Params) : p.Renews p := ⟨rfl, id, fun _ _ => .inl rfl⟩

theorem Params.Renews.trans {p q r : Params} (h : p.Renews q) (k : q.Renews r) : p.Renews r where
  staged := k.staged.trans h.staged
  wf := k.wf ∘ h.wf
  applied := fun w key => by
    rcases k.applied (h.wf w) key with e | e
    · rw [e]; exact h.applied w key
    · exact .inr (e.trans (by rw [h.staged]))

theorem Params.applyWhere_renews (f : Nat → Bool) (p : Params) : p.Renews (p.applyWhere f) where
  staged := rfl
  wf := p.applyWhere_wf f
  applied := fun w key => by
    rw [p.applyWhere_get f w]
    split
    · exact .inr rfl
    · exact .inl rfl

theorem Params.applyKey_renews (k : Nat) (p : Params) : p.Renews (p.applyKey k) where
  staged := rfl
  wf := fun w => by
    simp only [Params.wf, Params.applyKey, Bool.and_eq_true] at w ⊢
    exact ⟨paramSet_wf k _ _ w.1, w.2⟩
  applied := fun w key => by
    simp only [Params.wf, Bool.and_eq_true] at w
    by_cases e : key = k
    · exact .inr (by rw [e]; exact paramGet_set_same k _ _ w.1)
    · exact .inl (paramGet_set_other e _ _ w.1)

theorem Params.applyKeys_renews : ∀ (l : List Nat) (p : Params), p.Renews (l.foldl (fun q k => q.applyKey k) p)
  | [], p => .refl p
  | k :: l, p => (p.applyKey_renews k).trans (Params.applyKeys_renews l _)

end Sys2Proof.Machine
end

section
/-! SUPPORT. What no step of a tick edge changes: one lemma per step of R192. -/
namespace Sys2Proof.Machine

/-! ## What no step of a tick edge changes (R192) -/

/-- t is s after steps of a tick edge: the tick, the pins, the link, the queue, the part and the pair are those of s; an
absent axis has its position, a bank the state that the node sees; no command waits that did not; parameters are those
of s with staged values applied. -/
structure State.EdgeKeeps (s t : State) : Prop where
  frame : t = { s with blocks := t.blocks, fn := t.fn, mbx := t.mbx, perf := t.perf, commits := t.commits, axes := t.axes,
                       banks := t.banks, keep := t.keep, boot := t.boot, haltC4 := t.haltC4, mem := t.mem, nv := t.nv,
                       nodeP := t.nodeP, kiln := t.kiln, gpio := t.gpio, entry := t.entry, opSeq := t.opSeq,
                       emus := t.emus, batchTick := t.batchTick, free := t.free }
  pos : ∀ n : AxisId, s.axisPresent n = false → t.axes[n].eng.pos = s.axes[n].eng.pos
  view : ∀ b : BankId, t.banks[b].view = s.banks[b].view
  waits : s.noReset = true → t.noReset = true
  values : s.nodeP.Renews t.nodeP

namespace State.EdgeKeeps

theorem refl (s : State) : s.EdgeKeeps s := ⟨rfl, fun _ _ => rfl, fun _ => rfl, id, .refl _⟩

variable {s t u : State}

theorem present (h : s.EdgeKeeps t) (b : BankId) : t.present b = s.present b := by
  rw [h.frame]
  rfl

theorem axisPresent (h : s.EdgeKeeps t) (n : AxisId) : t.axisPresent n = s.axisPresent n := h.present (bankOf n)

theorem trans (h : s.EdgeKeeps t) (k : t.EdgeKeeps u) : s.EdgeKeeps u where
  frame := by
    have e := k.frame
    rw [h.frame] at e
    exact e
  pos := fun n hn => (k.pos n ((h.axisPresent n).trans hn)).trans (h.pos n hn)
  view := fun b => (k.view b).trans (h.view b)
  waits := k.waits ∘ h.waits
  values := h.values.trans k.values

theorem sendsTo (h : s.EdgeKeeps t) (b : BankId) : t.sendsTo b = s.sendsTo b := by
  have p : t.present b = s.present b := h.present b
  have a : t.attached b = s.attached b := by rw [h.frame]; rfl
  have l : t.links = s.links := by rw [h.frame]
  unfold State.sendsTo
  rw [p, a, l, h.view b]

/-- A branch: both ways keep it. -/
theorem ite {c : Prop} [Decidable c] (ht : s.EdgeKeeps t) (hu : s.EdgeKeeps u) : s.EdgeKeeps (if c then t else u) := by
  split
  · exact ht
  · exact hu

/-- A change of one axis that is present. -/
theorem modAxis (h : s.EdgeKeeps t) {n : AxisId} (hn : s.axisPresent n = true) (f : Axis → Axis) :
    s.EdgeKeeps (t.modAxis n f) := by
  refine h.trans ⟨rfl, fun k hk => ?_, fun _ => rfl, id, .refl _⟩
  have : k ≠ n := by
    rintro rfl
    rw [h.axisPresent, hn] at hk
    cases hk
  rw [State.modAxis_other t f this]

/-- A change of one axis that leaves its position. -/
theorem modAxis_pos (h : s.EdgeKeeps t) (n : AxisId) (f : Axis → Axis)
    (hf : ∀ a, (f a).eng.pos = a.eng.pos := by exact fun _ => rfl) :
    s.EdgeKeeps (t.modAxis n f) := by
  refine h.trans ⟨rfl, fun k _ => ?_, fun _ => rfl, id, .refl _⟩
  by_cases e : k = n
  · rw [e, State.modAxis_same, hf]
  · rw [State.modAxis_other t f e]

/-- A change of one bank that leaves what the node sees of it. -/
theorem modBank (h : s.EdgeKeeps t) (b : BankId) (f : Bank → Bank)
    (hf : ∀ k, (f k).view = k.view := by exact fun _ => rfl) :
    s.EdgeKeeps (t.modBank b f) := by
  refine h.trans ⟨rfl, fun _ _ => rfl, fun k => ?_, id, .refl _⟩
  by_cases e : k = b
  · rw [e, State.modBank_same, hf]
  · rw [State.modBank_other t f e]

/-- A change beside the axes, the banks and the mailboxes. -/
theorem beside (h : s.EdgeKeeps t)
    (e : u = { t with blocks := u.blocks, fn := u.fn, perf := u.perf, commits := u.commits, keep := u.keep, boot := u.boot,
                      haltC4 := u.haltC4, mem := u.mem, nv := u.nv, nodeP := u.nodeP, kiln := u.kiln, gpio := u.gpio,
                      entry := u.entry, opSeq := u.opSeq, emus := u.emus, batchTick := u.batchTick, free := u.free } := by rfl)
    (r : t.nodeP.Renews u.nodeP := by exact .refl _) : s.EdgeKeeps u := by
  refine h.trans ⟨?_, ?_, ?_, ?_, r⟩
  · rw [e]
  · rw [e]; exact fun _ _ => rfl
  · rw [e]; exact fun _ => rfl
  · rw [e]; exact id

/-- A repetition of what every pass keeps. -/
theorem each {α : Type} {l : List α} {f : α → State → State} (h : s.EdgeKeeps t)
    (hf : ∀ a ∈ l, ∀ v, s.EdgeKeeps v → s.EdgeKeeps (f a v)) : s.EdgeKeeps (t.each l f) := by
  induction l generalizing t with
  | nil => exact h
  | cons a r ih => exact ih (hf a List.mem_cons_self t h) fun b hb => hf b (List.mem_cons_of_mem a hb)

/-- A step over the present axes, one after the other. -/
theorem eachAxis {l : List AxisId} {f : AxisId → State → State} (h : s.EdgeKeeps t)
    (hl : ∀ n ∈ l, s.axisPresent n = true)
    (hf : ∀ (n : AxisId) (v : State), v.axisPresent n = true → v.EdgeKeeps (f n v)) : s.EdgeKeeps (t.each l f) :=
  h.each fun n hn v hv => hv.trans (hf n v ((hv.axisPresent n).trans (hl n hn)))

end State.EdgeKeeps

/-! ### Raising -/

theorem State.noReset_congr {s u : State} (h : u.mbx = s.mbx) : u.noReset = s.noReset := by
  unfold State.noReset
  rw [h]

theorem State.haltCommand_noReset (m : MbId) (s : State) (h : s.noReset = true) : (s.haltCommand m).noReset = true :=
  State.complete_noReset rfl h m 3 _

theorem State.haltRuns_mbx (s : State) : s.haltRuns.mbx = s.mbx := rfl

theorem State.class4Halt_noReset (s : State) (h : s.noReset = true) : s.class4Halt.noReset = true := by
  have l : s.lockHalt.noReset = true := h
  have e := State.each_keeps (fun t => t.noReset = true) _ State.haltCommand_noReset allMbs s.lockHalt l
  rwa [State.class4Halt, State.noReset_congr (State.haltRuns_mbx _)]

theorem State.raise1_noReset (i : BlockId) (bit : Nat) (test : Bool) (s : State) (h : s.noReset = true) :
    (s.raise1 i bit test).1.noReset = true := by
  unfold State.raise1
  split
  · exact h
  · simp only
    split
    · exact h
    · simp only
      split
      · exact State.class4Halt_noReset _ h
      · exact h

/-- What a raise may reach is no more than a step of a tick edge changes (R469). -/
theorem State.EdgeKeeps.of_raised {s t : State} (h : s.Raised t) (f : s.FaultFrame t) (p : t.nodeP = s.nodeP)
    (w : s.noReset = true → t.noReset = true) : s.EdgeKeeps t where
  frame := by
    unfold State.Raised at h
    rw [h]
  pos := fun n _ => by rw [f.2.1 n]
  view := fun b => by rw [f.2.2.1 b]
  waits := w
  values := p ▸ .refl _

theorem State.raise1_edge (i : BlockId) (bit : Nat) (test : Bool) (s : State) : s.EdgeKeeps (s.raise1 i bit test).1 := by
  have r := s.raise1_raised i bit test
  refine .of_raised r (s.raise1_frame i bit test) ?_ (s.raise1_noReset i bit test)
  unfold State.Raised at r
  rw [r]

theorem State.requestSoft_edge (b : BankId) (s : State) : s.EdgeKeeps (s.requestSoft b) := by
  unfold State.requestSoft
  exact .ite (((EdgeKeeps.refl s).modBank b _).trans (State.raise1_edge _ _ _ _)) (.refl s)

theorem State.raise_edge (i : BlockId) (bit : Nat) (s : State) : s.EdgeKeeps (s.raise i bit) := by
  unfold State.raise State.raiseT
  simp only
  split
  · exact (s.raise1_edge i bit false).each fun b _ v hv => hv.trans (v.requestSoft_edge b)
  · exact s.raise1_edge i bit false

namespace State.EdgeKeeps

variable {s t : State}

theorem raise (h : s.EdgeKeeps t) (i : BlockId) (bit : Nat) : s.EdgeKeeps (t.raise i bit) := h.trans (t.raise_edge i bit)

theorem raiseIf (h : s.EdgeKeeps t) (c : Bool) (i : BlockId) (bit : Nat) : s.EdgeKeeps (t.raiseIf c i bit) :=
  .ite (h.raise i bit) h

theorem queueOp (h : s.EdgeKeeps t) (b : BankId) (op : RegOp) (n : Nat) (m : Option MbId) :
    s.EdgeKeeps (t.queueOp b op n m) := 
  (h.modBank b fun k => { k with ops := k.ops ++ [⟨op, n, none, m, t.opSeq, false, []⟩] }).beside

end State.EdgeKeeps

namespace State.EdgeKeeps
variable {s t : State} {n : AxisId}

theorem modEng (h : s.EdgeKeeps t) (hn : s.axisPresent n = true) (f : Engine → Engine) : s.EdgeKeeps (t.modEng n f) :=
  h.modAxis hn _

theorem modObn (h : s.EdgeKeeps t) (n : AxisId) (f : ObsNode → ObsNode) : s.EdgeKeeps (t.modObn n f) := h.modAxis_pos n _

theorem queueRearm (h : s.EdgeKeeps t) (n : AxisId) (host : Bool) : s.EdgeKeeps (t.queueRearm n host) :=
  (h.modBank (bankOf n) fun k =>
    { k with ops := placeOp ⟨.rearm (posOf n) host, 1, none, none, t.opSeq, false, []⟩ k.ops }).beside

theorem enableStep (hn : s.axisPresent n = true) : s.EdgeKeeps (s.enableStep n) := by
  unfold State.enableStep
  extract_lets b c r s1 s2 high s3 a rose
  have h1 : s.EdgeKeeps s1 := (refl s).modAxis hn _
  have h2 : s.EdgeKeeps s2 := .ite (h1.queueOp _ _ _ _) h1
  have h3 : s.EdgeKeeps s3 := h2.modEng hn _
  exact .ite (h3.queueRearm _ _) h3

theorem applyTick (s : State) : s.EdgeKeeps s.applyTick := by
  unfold State.applyTick
  extract_lets s1 s2
  have h1 : s.EdgeKeeps s1 := (refl s).beside rfl (s.nodeP.applyWhere_renews fun k => decide (keyAcc k = .tick))
  have h2 : s.EdgeKeeps s2 := h1.each fun n _ v hv => hv.beside
  exact h2.beside

theorem triggerStep (hn : s.axisPresent n = true) : s.EdgeKeeps (s.triggerStep n) := by
  unfold State.triggerStep
  exact (refl s).modAxis hn _

theorem stallStep (hn : s.axisPresent n = true) (h : s.EdgeKeeps t) : s.EdgeKeeps (t.stallStep n) := by
  unfold State.stallStep
  extract_lets e o cfg moving
  refine .ite h (.ite (.ite (h.modEng hn _) h) (.ite h ?_))
  exact (h.modEng hn _).raise _ _

theorem recordStep (hn : s.axisPresent n = true) : s.EdgeKeeps (s.recordStep n) := by
  unfold State.recordStep
  extract_lets o s1 s2
  have h1 : s.EdgeKeeps s1 := (refl s).modObn n _
  have h2 : s.EdgeKeeps s2 := .ite ((h1.modEng hn _).raise _ _) h1
  exact .ite (h2.stallStep hn) h2

theorem serviceStep (hn : s.axisPresent n = true) : s.EdgeKeeps (s.serviceStep n) :=
  .ite (refl s) ((refl s).modEng hn _)

theorem capture (old : State) (h : s.EdgeKeeps t) (hn : s.axisPresent n = true) : s.EdgeKeeps (State.capture old n t) := by
  unfold State.capture
  exact h.modAxis hn _

theorem transitStep (old : State) (hn : s.axisPresent n = true) : s.EdgeKeeps (State.transitStep old n s) := by
  unfold State.transitStep
  extract_lets c k run on e lim chg r leaves s1 s2 gear
  have h2 : s.EdgeKeeps s2 := ((refl s).modAxis hn _).raiseIf _ _ _
  exact .ite (h2.capture old hn) h2

theorem moveStep (old : State) (hn : s.axisPresent n = true) : s.EdgeKeeps (State.moveStep old n s) := by
  have follow : s.EdgeKeeps (State.followStep old n s) := by
    unfold State.followStep
    extract_lets q r s1 s2
    have h1 : s.EdgeKeeps s1 := (refl s).modAxis hn _
    have h2 : s.EdgeKeeps s2 := h1.each fun b _ v hv => hv.raise _ _
    exact ((h2.raiseIf _ _ _).raiseIf _ _ _).raiseIf _ _ _
  have limit : s.EdgeKeeps (s.limitStep n) := (((refl s).modEng hn _).raiseIf _ _ _).raiseIf _ _ _
  exact (ite follow limit).modEng hn _

theorem groupStepOf (old s : State) : s.EdgeKeeps (State.groupStepOf old s) :=
  (refl s).each fun n _ _ hv => .ite (hv.modAxis_pos n _) hv

theorem homeFail (h : s.EdgeKeeps t) (n : AxisId) (cause : BitVec 4) : s.EdgeKeeps (t.homeFail n cause) :=
  (h.modObn n _).raise _ _

theorem homeContact (hn : s.axisPresent n = true) : s.EdgeKeeps (s.homeContact n) := by
  unfold State.homeContact
  extract_lets s1
  have h1 : s.EdgeKeeps s1 := (refl s).modAxis hn _
  exact .ite (h1.queueOp _ _ _ _) h1

theorem seekStep (hn : s.axisPresent n = true) (contact cmd armed : Bool) :
    s.EdgeKeeps (s.seekStep n contact cmd armed) := by
  have stop (cause : BitVec 4) : s.EdgeKeeps (s.homeStop n cause) := ((refl s).modEng hn _).homeFail n cause
  have fail (cause : BitVec 4) : s.EdgeKeeps (s.homeFail n cause) := (refl s).homeFail n cause
  exact .ite (homeContact hn) (.ite (fail 2) (.ite (fail 4) (.ite (stop 1) (.ite (stop 3)
    (.ite ((refl s).modObn n _) (refl s))))))

theorem contactStep (hn : s.axisPresent n = true) (cmd : Bool) : s.EdgeKeeps (s.contactStep n cmd) := by
  unfold State.contactStep
  refine .ite ((refl s).homeFail n 4) ?_
  split
  · exact (refl s).modAxis hn _
  · exact (refl s).modObn n _

theorem homeDone (hn : s.axisPresent n = true) : s.EdgeKeeps (s.homeDone n) := by
  unfold State.homeDone
  exact (refl s).modAxis hn _

theorem backoffStep (hn : s.axisPresent n = true) (cmd : Bool) : s.EdgeKeeps (s.backoffStep n cmd) :=
  have fail : s.EdgeKeeps (s.homeFail n 4) := (refl s).homeFail n 4
  .ite fail (.ite (refl s) (.ite (homeDone hn) fail))

theorem homeStep (old mid : State) (hn : s.axisPresent n = true) : s.EdgeKeeps (State.homeStep old mid n s) := by
  unfold State.homeStep
  extract_lets o m cmd
  split
  · split
    · extract_lets s1
      have h1 : s.EdgeKeeps s1 := (refl s).modObn n _
      exact .ite h1 (h1.homeFail n 2)
    · exact (refl s).modObn n _
  · split
    · exact seekStep hn _ _ _
    · exact contactStep hn _
    · exact backoffStep hn _
    · exact refl s

theorem currentStep (old : State) (ialloc sum : Nat) (hn : s.axisPresent n = true) :
    s.EdgeKeeps (State.currentStep old ialloc sum n s) := ((refl s).modAxis hn _).raiseIf _ _ _

theorem fire (h : s.EdgeKeeps t) (n : AxisId) (f : Fire) (p : Int) : s.EdgeKeeps (t.fire n f p) := by
  unfold State.fire
  extract_lets w pin q g s1
  have h1 : s.EdgeKeeps s1 := .ite h.beside h
  exact .ite (h1.modAxis_pos _ _) h1

theorem compareStep (hn : s.axisPresent n = true) : s.EdgeKeeps (s.compareStep n) := by
  unfold State.compareStep
  extract_lets a p q r s1
  have h1 : s.EdgeKeeps s1 := (refl s).modAxis hn _
  split
  · exact h1.fire _ _ _
  · exact h1

theorem recordAxis (old : State) (n : AxisId) (s : State) : s.EdgeKeeps (State.recordAxis old n s) := by
  unfold State.recordAxis
  extract_lets e live s1
  have h1 : s.EdgeKeeps s1 := (refl s).modAxis_pos n _
  exact .ite h1.beside h1

theorem blindStep (n : AxisId) (s : State) : s.EdgeKeeps (s.blindStep n) := (refl s).modAxis_pos n _

theorem coneAxis (hn : s.axisPresent n = true) : s.EdgeKeeps (s.coneAxis n) := by
  unfold State.coneAxis
  extract_lets old c q s1 s2
  have h1 : s.EdgeKeeps s1 := (refl s).beside
  have h2 : s.EdgeKeeps s2 := .ite h1 (h1.each fun k _ v hv => hv.raise _ _)
  exact .ite (h2.modAxis hn _) h2

theorem renewSoft (h : s.EdgeKeeps t) (b : BankId) : s.EdgeKeeps (t.renewSoft b) := by
  unfold State.renewSoft
  extract_lets on s1
  have h1 : s.EdgeKeeps s1 := .ite (h.trans (t.requestSoft_edge b)) h
  exact h1.modBank b _

/-- The axes that a step lists as present are. -/
theorem mem_presentAxes (h : n ∈ s.presentAxes) : s.axisPresent n = true := (List.mem_filter.mp h).2

theorem kilnTick (s : State) : s.EdgeKeeps s.kilnTick := by
  unfold State.kilnTick
  extract_lets s1 s2 old c k3 s3 s4 k5 s5
  have h1 : s.EdgeKeeps s1 := (refl s).each fun b _ v hv => hv.beside.raiseIf _ _ _
  have h2 : s.EdgeKeeps s2 := h1.trans ((refl s1).eachAxis (fun _ hn => mem_presentAxes hn) fun _ _ => coneAxis)
  have h3 : s.EdgeKeeps s3 := h2.beside
  have h4 : s.EdgeKeeps s4 := (h3.raiseIf _ _ _).raiseIf _ _ _
  have h5 : s.EdgeKeeps s5 := h4.beside
  exact h5.each fun b _ v hv => hv.renewSoft b

end State.EdgeKeeps

namespace State.EdgeKeeps
variable {s t : State} {n : AxisId}

theorem startOp (h : s.EdgeKeeps t) (o : ProgOp) : s.EdgeKeeps (t.startOp o).1 := by
  unfold State.startOp
  extract_lets s1 m
  have h1 : s.EdgeKeeps s1 :=
    h.beside rfl (t.nodeP.applyWhere_renews fun k =>
      decide (keyIdent k = 0x7200 ∨ keyIdent k = 0x7201 ∨ keyIdent k = 0x7202))
  split
  · exact h1.beside
  · have h2 : s.EdgeKeeps (s1.modMem fun m => { m with refused := true, xaddr := BitVec.ofNat 32 o.addr }) := h1.beside
    exact h2.raiseIf _ _ _

theorem flushBuffer (h : s.EdgeKeeps t) : s.EdgeKeeps t.flushBuffer := by
  unfold State.flushBuffer
  split
  · exact h
  · have h1 : s.EdgeKeeps (t.modMem fun m => { m with wpage := none, wbuf := [] }) := h.beside
    exact h1.startOp _

theorem requestFetch (h : s.EdgeKeeps t) (n : AxisId) : s.EdgeKeeps (t.requestFetch n) := by
  unfold State.requestFetch
  split
  · extract_lets a k1 s1 s2 touches
    have h1 : s.EdgeKeeps s1 := h.beside
    have h2 : s.EdgeKeeps s2 := .ite h1.beside h1
    exact (EdgeKeeps.ite h2.flushBuffer h2).modAxis_pos n _
  · exact h

theorem retryFetch (h : s.EdgeKeeps t) (n : AxisId) : s.EdgeKeeps (t.retryFetch n) := .ite (h.requestFetch n) h

theorem emuJudge (h : s.EdgeKeeps t) (n : EmuId) : s.EdgeKeeps (t.emuJudge n) := by
  unfold State.emuJudge
  extract_lets b beyond
  have h1 : s.EdgeKeeps (t.modEmu n fun e => { e with lagUp := (e.lagUp || beyond) && decide (b ≠ 0) }) := h.beside
  exact h1.raiseIf _ _ _

theorem emuApply (h : s.EdgeKeeps t) (n : EmuId) : s.EdgeKeeps (t.emuApply n) := by
  unfold State.emuApply
  extract_lets keys differs free s1
  have h1 : s.EdgeKeeps s1 := h.beside rfl (Params.applyKeys_renews keys t.nodeP)
  exact .ite (.ite h1.beside h1) h

theorem emuEdge (h : s.EdgeKeeps t) (n : EmuId) : s.EdgeKeeps (t.emuEdge n) := by
  have h1 : s.EdgeKeeps (t.modEmu n (Emu.edge (t.emuHold (t.emuCfg n)) (t.emuLine (t.emuCfg n)))) := h.beside
  exact (h1.emuApply n).emuJudge n

theorem keepWrite (h : s.EdgeKeeps t) : s.EdgeKeeps t.keepWrite := .ite h.beside h

theorem intervalStep (h : s.EdgeKeeps t) : s.EdgeKeeps t.intervalStep := .ite h.beside (.ite h.beside h)

/-- The steps up to the boundary of TICK values (R93, R181). -/
theorem toBoundary (s : State) : s.EdgeKeeps (s.each s.presentAxes State.enableStep).applyTick :=
  ((refl s).eachAxis (fun _ hn => mem_presentAxes hn) fun _ _ => enableStep).trans (applyTick _)

/-- The engines' steps behind the boundary of TICK values (R192). -/
theorem fromBoundary (old s : State) :
    (s.each s.presentAxes State.enableStep).applyTick.EdgeKeeps (State.engineSteps old s) := by
  have b := toBoundary s
  unfold State.engineSteps
  extract_lets l s1 s2 s3 s4 s5 s6
  have ax {t : State} (h : s1.EdgeKeeps t) {f : AxisId → State → State}
      (hf : ∀ (n : AxisId) (v : State), v.axisPresent n = true → v.EdgeKeeps (f n v)) : s1.EdgeKeeps (t.each l f) :=
    h.eachAxis (fun n hn => (b.axisPresent n).trans (mem_presentAxes hn)) hf
  have h2 : s1.EdgeKeeps s2 := (ax (refl s1) fun _ _ => triggerStep).trans (kilnTick _)
  have h3 : s1.EdgeKeeps s3 := ax (ax h2 fun _ _ => recordStep) fun _ _ => serviceStep
  have h4 : s1.EdgeKeeps s4 := ax (ax h3 fun _ _ => transitStep old) fun _ _ => moveStep old
  have h5 : s1.EdgeKeeps s5 := ax (h4.trans (groupStepOf s3 s4)) fun _ _ => homeStep old s3
  have h6 : s1.EdgeKeeps s6 := ax h5 fun _ _ => currentStep old _ _
  exact ax h6 fun _ _ => compareStep

theorem engineSteps (old s : State) : s.EdgeKeeps (State.engineSteps old s) := (toBoundary s).trans (fromBoundary old s)

end State.EdgeKeeps

/-! ### The boundary of TICK values (R93) -/

theorem State.applyTick_nodeP (s : State) : s.applyTick.nodeP = s.nodeP.applyWhere fun k => decide (keyAcc k = .tick) :=
  State.each_proj _ (fun t => t.nodeP) State.streamMask (fun _ _ => rfl) _

/-- Behind the engines' steps every TICK value is the staged one. -/
theorem State.engineSteps_tick (old s : State) (w : s.nodeP.wf = true) {key : Nat} (hk : keyAcc key = .tick) :
    paramGet (State.engineSteps old s).nodeP.applied key = paramGet s.nodeP.staged key := by
  have a : s.EdgeKeeps (s.each s.presentAxes State.enableStep) :=
    (EdgeKeeps.refl s).eachAxis (fun _ hn => EdgeKeeps.mem_presentAxes hn) fun _ _ => EdgeKeeps.enableStep
  have b := (EdgeKeeps.toBoundary s).values
  have at_ : paramGet (s.each s.presentAxes State.enableStep).applyTick.nodeP.applied key = paramGet s.nodeP.staged key := by
    rw [State.applyTick_nodeP, Params.applyWhere_get _ _ (a.values.wf w), if_pos (decide_eq_true hk), a.values.staged]
  rcases (EdgeKeeps.fromBoundary old s).values.applied (b.wf w) key with e | e
  · exact e.trans at_
  · rw [e, b.staged]

/-! ### The latch of D(k) (R28, R33, R35) -/

/-- t is s after work on the packet of one bank. -/
structure State.Packs (b : BankId) (s t : State) : Prop where
  frame : t = { s with banks := t.banks, opSeq := t.opSeq, batchTick := t.batchTick, perf := t.perf }
  other : ∀ k : BankId, k ≠ b → t.banks[k] = s.banks[k]
  view : t.banks[b].view = s.banks[b].view

namespace State.Packs
variable {b : BankId} {s t u : State}

theorem refl (b : BankId) (s : State) : s.Packs b s := ⟨rfl, fun _ _ => rfl, rfl⟩

theorem trans (h : s.Packs b t) (k : t.Packs b u) : s.Packs b u where
  frame := by
    have e := k.frame
    rw [h.frame] at e
    exact e
  other := fun c hc => (k.other c hc).trans (h.other c hc)
  view := k.view.trans h.view

theorem modBank (h : s.Packs b t) (f : Bank → Bank) (hf : ∀ k, (f k).view = k.view := by exact fun _ => rfl) :
    s.Packs b (t.modBank b f) :=
  h.trans ⟨rfl, fun k hk => State.modBank_other t f hk, by rw [State.modBank_same, hf]⟩

/-- A change beside the banks. -/
theorem beside (h : s.Packs b t)
    (e : u = { t with opSeq := u.opSeq, batchTick := u.batchTick, perf := u.perf } := by rfl) : s.Packs b u := by
  refine h.trans ⟨?_, ?_, ?_⟩
  · rw [e]
  · rw [e]; exact fun _ _ => rfl
  · rw [e]

theorem addProofReads (b : BankId) (s : State) : s.Packs b (s.addProofReads b) := by
  unfold State.addProofReads
  split
  · exact ((refl b s).modBank fun k => { k with ops := ⟨.proof, 5, none, none, s.opSeq, false, []⟩ :: k.ops }).beside
  · exact refl b s

theorem freeRead {q : State × Fill} (h : s.Packs b q.1) (op : RegOp) : s.Packs b (State.freeRead op q).1 := h.beside

theorem addScan {q : State × Fill} (h : s.Packs b q.1) : s.Packs b (State.addScan b q).1 := by
  unfold State.addScan
  split
  · exact h
  · extract_lets p q1
    have h1 : s.Packs b q1.1 := by
      unfold q1
      split
      · exact freeRead (q := (_, _)) (h.modBank fun k => { k with scanPos := p + 1 }) _
      · exact h
    refine List.foldlRecOn (motive := fun r : State × Fill => s.Packs b r.1) allPos _ h1 fun r hr p _ => ?_
    split
    · exact freeRead (q := (_, _)) (hr.modBank fun k => { k with harmDue := k.harmDue &&& ~~~(1#4 <<< p.val) }) _
    · exact hr

theorem edgeKeeps (h : s.Packs b t) : s.EdgeKeeps t where
  frame := by
    have e := h.frame
    rw [e]
  pos := fun n _ => by rw [h.frame]
  view := fun k => by
    by_cases e : k = b
    · rw [e, h.view]
    · rw [h.other k e]
  waits := fun w => by
    have m : t.mbx = s.mbx := by rw [h.frame]
    rw [State.noReset_congr m, w]
  values := by
    have p : t.nodeP = s.nodeP := by rw [h.frame]
    exact p ▸ .refl _

end State.Packs

end Sys2Proof.Machine
end

section
/-! SUPPORT. The packets of a tick edge (R28, R33). -/
namespace Sys2Proof.Machine

namespace State.Packs
variable {b : BankId} {s t : State}

theorem countBytes (h : s.Packs b t) (port n : Nat) : s.Packs b (t.countBytes port n) := by
  unfold State.countBytes
  split
  · exact h.beside
  · exact h

theorem latch (b : BankId) (s : State) : s.Packs b (s.latch b) := by
  unfold State.latch
  extract_lets s0 r k due svc d fresh s1
  have h0 : s.Packs b r.1 := addScan (q := (_, _)) (addProofReads b s)
  have h1 : s.Packs b s1 := h0.modBank _
  exact (h1.beside (u := { s1 with batchTick := if d.batch then BitVec.ofNat 16 s.tick else s1.batchTick })).countBytes _ _

end State.Packs

/-- The packet held for a bank in t is that of the tick of s, with the setpoints of s (R28, R30). -/
def State.Shows (s : State) (b : BankId) (t : State) : Prop :=
  ∃ d, t.banks[b].dpkt = some d ∧ d.tick = BitVec.ofNat 16 s.tick ∧ ∀ p : Pos, d.sp[p] = s.setpoint (axisAt b p)

theorem State.countBytes_banks (port n : Nat) (s : State) : (s.countBytes port n).banks = s.banks := by
  unfold State.countBytes
  split <;> rfl

theorem State.latch_shows (b : BankId) (s : State) : s.Shows b (s.latch b) := by
  unfold State.latch
  extract_lets s0 r k due svc d fresh s1
  refine ⟨d, ?_, rfl, fun p => by simp [d]⟩
  rw [State.countBytes_banks]
  change s1.banks[b].dpkt = some d
  unfold s1
  rw [State.modBank_same]

/-- What the setpoints of a packet are made of is not changed by the work on a packet. -/
theorem State.Packs.shows {c b : BankId} {s t u : State} (h : s.Packs c t) (k : t.Shows b u) : s.Shows b u := by
  obtain ⟨d, hd, ht, hp⟩ := k
  rw [h.frame] at ht hp
  exact ⟨d, hd, ht, hp⟩

theorem State.each_cons {α : Type} (a : α) (l : List α) (f : α → State → State) (s : State) :
    s.each (a :: l) f = (f a s).each l f := rfl

theorem State.latches_other {b : BankId} : ∀ {l : List BankId} (s : State), b ∉ l →
    (s.each l State.latch).banks[b] = s.banks[b]
  | [], _, _ => rfl
  | c :: l, s, h => by
    rw [List.mem_cons, not_or] at h
    rw [State.each_cons, State.latches_other _ h.2, (State.Packs.latch c s).other b h.1]

/-- Every bank of a list of latches holds its packet in the end. -/
theorem State.latches_show {b : BankId} {l : List BankId} (s : State) (h : b ∈ l) : s.Shows b (s.each l State.latch) := by
  induction l generalizing s with
  | nil => exact absurd h List.not_mem_nil
  | cons c l ih =>
    rw [State.each_cons]
    by_cases hl : b ∈ l
    · exact (State.Packs.latch c s).shows (ih _ hl)
    · obtain rfl : b = c := (List.mem_cons.mp h).resolve_right hl
      obtain ⟨d, hd, k⟩ := State.latch_shows b s
      exact ⟨d, by rw [State.latches_other _ hl, hd], k⟩

theorem State.currentWord_on (s : State) (n : AxisId) :
    (s.currentWord n).getLsbD 0 = decide (s.axes[n].eng.st ≠ .off) := by
  unfold State.currentWord
  rw [BitVec.getLsbD_append]
  simp

/-! ### TICK_EDGE -/

theorem State.handOverEdge_none {s : State} (h : s.pair.handing = none) : s.handOverEdge = s := by
  rw [State.handOverEdge, h]

/-- An edge without a hand-over begins with the timers and the tick number alone (R36, R48, R507). -/
theorem State.edgeStart_frame (pins : BitVec 24) {s t : State} (h : s.pair.handing = none) (ht : t = s.edgeStart pins) :
    t = { s with tick := s.tick + 1, enPins := 0#24 ++ pins, auxq := t.auxq, mem := t.mem, entry := t.entry, fn := t.fn,
                 nv := t.nv, gpio := t.gpio, edgeT := t.edgeT, clk := 0, fbs := t.fbs, banks := t.banks, keep := t.keep,
                 free := t.free } ∧ ∀ b : BankId, t.banks[b].view = s.banks[b].view := by
  rw [State.edgeStart, State.handOverEdge_none (by exact h)] at ht
  rw [ht]
  refine ⟨rfl, fun b => ?_⟩
  simp [State.clockTick, State.fresh]

end Sys2Proof.Machine
end

section
/-! PROOF. TICK_EDGE (R12, R28, R30, R93, R164, R192). -/
namespace Sys2Proof.Machine

theorem State.EdgeKeeps.openWindow {s t : State} (h : s.EdgeKeeps t) :
    s.EdgeKeeps { t with perf := { t.perf with window := true } } := h.beside

/-- An edge with power and a reference: timers and fetches to `a`, the engines' steps, what follows them to `z`, the
packets of the banks that the node sends to, and the completions (R192). -/
theorem State.tickEdge_runs (pins : BitVec 24) {s : State} (hp : s.powered = true) (hr : s.refOk = true) :
    ∃ (a z w : State) (l : List BankId), (s.edgeStart pins).EdgeKeeps a ∧ (State.engineSteps s a).EdgeKeeps z ∧
      (∀ b, z.sendsTo b = true → b ∈ l) ∧ w = z.each l State.latch ∧
      s.tickEdge pins = { w.settle with elapsed := s.units, units := w.nextUnits } := by
  unfold State.tickEdge
  rw [if_pos ⟨hp, hr⟩]
  extract_lets ran a s2 s3 s4 perf s5 w
  have ha : (s.edgeStart pins).EdgeKeeps a := (EdgeKeeps.refl _).each fun n _ v hv => hv.retryFetch n
  have h3 : s2.EdgeKeeps s3 :=
    ((EdgeKeeps.refl s2).each fun n _ v hv => hv.trans (.recordAxis s n v)).each fun n _ v hv => hv.trans (.blindStep n v)
  have h4 : s2.EdgeKeeps s4 := h3.keepWrite.each fun n _ v hv => hv.emuEdge n
  have h5 : s2.EdgeKeeps s5 := .ite h4.openWindow h4
  have hi : s5.EdgeKeeps s5.intervalStep := (EdgeKeeps.refl s5).intervalStep
  refine ⟨a, s5.intervalStep, w, _, ha, h5.trans hi, fun b hb => ?_, rfl, rfl⟩
  have sent : s5.sendsTo b = true := (hi.sendsTo b).symm.trans hb
  have pres : s5.present b = true := by
    simp only [State.sendsTo, Bool.and_eq_true] at sent
    exact sent.1.1.2
  exact List.mem_filter.mpr ⟨List.mem_filter.mpr ⟨List.mem_finRange b, pres⟩, sent⟩

theorem State.latches_keep (l : List BankId) (s : State) : s.EdgeKeeps (s.each l State.latch) :=
  (EdgeKeeps.refl s).each fun b _ v hv => hv.trans (Packs.latch b v).edgeKeeps

theorem State.latches_axes (l : List BankId) (s : State) : (s.each l State.latch).axes = s.axes :=
  State.each_proj s (fun t => t.axes) State.latch (fun b t => by rw [(Packs.latch b t).frame]) l

/-- t is a state within a tick edge of s without a hand-over (R28, R30, R192). -/
structure State.InEdge (pins : BitVec 24) (s t : State) : Prop where
  tick : t.tick = s.tick + 1
  enPins : t.enPins = 0#24 ++ pins
  link : t.link = s.link
  part : t.part = s.part
  pending : t.pending = s.pending
  pair : t.pair = s.pair
  sends : ∀ b, t.sendsTo b = s.sendsTo b
  pos : ∀ n : AxisId, s.axisPresent n = false → t.axes[n].eng.pos = s.axes[n].eng.pos
  waits : s.noReset = true → t.noReset = true
  values : s.nodeP.Renews t.nodeP

theorem State.InEdge.of_edgeStart (pins : BitVec 24) {s : State} (h : s.pair.handing = none) :
    s.InEdge pins (s.edgeStart pins) := by
  obtain ⟨e, view⟩ := State.edgeStart_frame pins h rfl
  refine ⟨by rw [e], by rw [e], by rw [e], by rw [e], by rw [e], by rw [e], fun b => ?_,
    fun n _ => by rw [e], fun w => ?_, ?_⟩
  · have p : (s.edgeStart pins).present b = s.present b := by rw [e]; rfl
    have a : (s.edgeStart pins).attached b = s.attached b := by rw [e]; rfl
    have l : (s.edgeStart pins).links = s.links := by rw [e]
    rw [State.sendsTo, State.sendsTo, p, a, l, view b]
  · have m : (s.edgeStart pins).mbx = s.mbx := by rw [e]
    rw [State.noReset_congr m, w]
  · have v : (s.edgeStart pins).nodeP = s.nodeP := by rw [e]
    exact v ▸ .refl _

theorem State.InEdge.keeps {pins : BitVec 24} {s t u : State} (h : s.InEdge pins t) (k : t.EdgeKeeps u) :
    s.InEdge pins u where
  tick := by rw [k.frame, h.tick]
  enPins := by rw [k.frame, h.enPins]
  link := by rw [k.frame, h.link]
  part := by rw [k.frame, h.part]
  pending := by rw [k.frame, h.pending]
  pair := by rw [k.frame, h.pair]
  sends := fun b => (k.sendsTo b).trans (h.sends b)
  pos := fun n hn => by
    have absent : t.axisPresent n = false := by
      rw [← hn]
      unfold State.axisPresent State.present
      rw [h.part, h.pair]
    exact (k.pos n absent).trans (h.pos n hn)
  waits := k.waits ∘ h.waits
  values := h.values.trans k.values

/-- The setpoints of a packet are those of the axes (R28, R30). -/
theorem State.Shows.setpoints {b : BankId} {s t : State} (h : s.Shows b t) :
    ∃ d, t.banks[b].dpkt = some d ∧ d.tick = BitVec.ofNat 16 s.tick ∧
      ∀ p : Pos, d.sp[p].angle = angleOf s.axes[axisAt b p].eng.pos ∧
        d.sp[p].vff = BitVec.ofInt 32 s.axes[axisAt b p].eng.velQ ∧
        (d.sp[p].cur.getLsbD 0 = true ↔ s.axes[axisAt b p].eng.st ≠ .off) := by
  obtain ⟨d, hd, ht, hp⟩ := h
  refine ⟨d, hd, ht, fun p => ?_⟩
  rw [hp p]
  refine ⟨rfl, rfl, ?_⟩
  rw [State.setpoint, State.currentWord_on, decide_eq_true_eq]

/-- Settles O38: the edge runs through its steps, none of which changes what it is to keep, and ends with the latches. -/
theorem tickEdges : Obligations.TickEdges := by
  intro s pins
  refine ⟨fun h => ?_, fun hp hr hw hh => ?_⟩
  · have : ¬ (s.powered = true ∧ s.refOk = true) := by
      rintro ⟨p, r⟩
      rcases h with h | h
      · rw [p] at h; cases h
      · rw [r] at h; cases h
    change Host.Outcome.next (s.tickEdge pins) = .next s
    rw [State.tickEdge, if_neg this]
  · obtain ⟨a, z, w, l, ha, hz, hl, rfl, e⟩ := State.tickEdge_runs pins hp hr
    have ka : s.InEdge pins a := (State.InEdge.of_edgeStart pins hh).keeps ha
    have kz : s.InEdge pins z := (ka.keeps (.engineSteps s a)).keeps hz
    have kw : s.InEdge pins (z.each l State.latch) := kz.keeps (State.latches_keep l z)
    have b := State.settle_beside (kw.waits hw)
    have end_ := e.trans (congrArg (fun v : State =>
      { v with elapsed := s.units, units := (z.each l State.latch).nextUnits }) b.1)
    have axes := State.latches_axes l z
    refine ⟨_, congrArg Host.Outcome.next end_, kw.tick, rfl, ?_, kw.link, kw.enPins, kw.part, kw.pending, kw.pos,
      fun wf key hk => ?_, fun c hc => ?_⟩
    · change State.nextUnits _ = _
      rw [State.nextUnits, kw.pair]
    · have applied := State.engineSteps_tick s a (ka.values.wf wf) hk
      have ke := ka.keeps (.engineSteps s a)
      change paramGet (z.each l State.latch).nodeP.applied key = _
      rcases (hz.trans (State.latches_keep l z)).values.applied (ke.values.wf wf) key with r | r
      · rw [r, applied, ka.values.staged]
      · rw [r, ke.values.staged]
    · obtain ⟨d, hd, ht, hp⟩ := (State.latches_show z (hl c ((kz.sends c).trans hc))).setpoints
      refine ⟨d, hd, by rw [ht, kz.tick], ?_⟩
      change ∀ p : Pos, _ = angleOf (z.each l State.latch).axes[axisAt c p].eng.pos ∧ _
      simp only [axes]
      exact hp

end Sys2Proof.Machine
end

section
/-! PROOF. The parameter commands (R116, R139, R146, R147). -/
namespace Sys2Proof.Machine

/-! ## Reads (R116, R146, R149) -/

section Reads
variable {s : State} {m : MbId} {t : Target} {sp : Span} {active narrow : Bool}

theorem State.getParam_error {e : ECode} {d : Nat}
    (h : checkSpan t (s.mbx[m].pay 1) (readCount s.mbx[m]) narrow = .error (e, d)) :
    s.getParam m t active narrow = s.err m e d := by
  unfold readCount at h
  simp only [State.getParam, h]

theorem State.getParam_ok (h : checkSpan t (s.mbx[m].pay 1) (readCount s.mbx[m]) narrow = .ok sp) :
    s.getParam m t active narrow = s.getSpan m t sp active := by
  unfold readCount at h
  simp only [State.getParam, h]

/-- A span that the node holds, or of a target without a bank. -/
theorem State.getSpan_node (h : sp.id.bankHeld = false ∨ t.bank? = none) :
    s.getSpan m t sp active = s.done m (s.nodeWords t sp active) := by
  have : (if sp.id.bankHeld then t.bank? else none) = none := by
    rcases h with h | h <;> simp [h]
  simp only [State.getSpan, this]

theorem State.getSpan_linked {b : BankId} (hs : sp.id.bankHeld = true) (hb : t.bank? = some b) (hl : s.linked b = true) :
    s.getSpan m t sp active = (s.queueOp b (sp.readOp t active) sp.n (some m)).wait m (.bank b []) := by
  simp only [State.getSpan, hs, hb, hl, if_true]

theorem State.getSpan_copy {b : BankId} {d : PDef} (hs : sp.id.bankHeld = true) (hb : t.bank? = some b)
    (hl : s.linked b = false) (hd : sp.id = .param d) : s.getSpan m t sp active = s.done m (s.nodeWords t sp active) := by
  have h : Ident.bankHeld (.param d) = true := hd ▸ hs
  simp [State.getSpan, hb, hl, hd, h]

theorem State.getSpan_nolink {b : BankId} {d : LDef} (hs : sp.id.bankHeld = true) (hb : t.bank? = some b)
    (hl : s.linked b = false) (hd : sp.id = .live d) : s.getSpan m t sp active = s.err m .nolink 0 := by
  have h : Ident.bankHeld (.live d) = true := hd ▸ hs
  simp [State.getSpan, hb, hl, hd, h]

end Reads

/-- A command that reads a span does what R116 and R146 say of it. -/
theorem readDoes {c : MbId → Instr} {abi op : Nat} {active narrow : Bool}
    (hc : ∀ m s, exec (c m) s = .next (s.run m abi op fun t u => u.getParam m t active narrow)) :
    ReadDoes c abi op active narrow := by
  intro s m t ht
  rw [hc]
  refine ⟨fun e d h => State.run_err ht _ e d (State.getParam_error h) rfl,
    fun sp h => ⟨fun hs => ?_, fun b hs hb => ⟨fun hl => ?_, fun hl hd => ?_, fun hl hd => ?_⟩⟩⟩
  · exact State.run_done ht _ _ ((State.getParam_ok h).trans (State.getSpan_node hs)) rfl
  · exact State.run_wait ht _ _ ((State.getParam_ok h).trans (State.getSpan_linked hs hb hl)) rfl ⟨nofun, nofun⟩
  · obtain ⟨d, hd⟩ := hd
    exact State.run_done ht _ _ ((State.getParam_ok h).trans (State.getSpan_copy hs hb hl hd)) rfl
  · obtain ⟨d, hd⟩ := hd
    exact State.run_err ht _ _ _ ((State.getParam_ok h).trans (State.getSpan_nolink hs hb hl hd)) rfl

theorem readsComplete : ReadsComplete :=
  ⟨readDoes fun _ _ => rfl, readDoes fun _ _ => rfl, readDoes fun _ _ => rfl⟩

/-! ## Writes (R116, R118, R147) -/

section Writes
variable {s : State} {m : MbId} {t : Target} {sp : Span} {d : PDef} {narrow : Bool}

theorem setWords_length (s : State) (m : MbId) (d : PDef) (sp : Span) : (setWords s m d sp).length = sp.n := by
  simp [setWords, storedValues]

/-- Opening Proofs touches Proofs and commits alone (R102, R103). -/
theorem State.openProofs_frame (l : List ProofId) (s : State) :
    s.openProofs l = { s with proofs := (s.openProofs l).proofs, commits := (s.openProofs l).commits } := by
  have h : s.each l (fun i t => t.modProof i Proof.opened) =
      { s with proofs := (s.each l fun i t => t.modProof i Proof.opened).proofs } :=
    State.each_keeps (fun t => t = { s with proofs := t.proofs }) _ (fun i t ht => by rw [ht]; rfl) l s rfl
  unfold State.openProofs
  rw [h]

theorem landedWords_mbx (s : State) (t : Target) (d : PDef) (sp : Span) (vals : List Word) :
    (landedWords s t d sp vals).mbx = s.mbx := by
  rw [landedWords, State.openProofs_frame]

theorem State.linked_congr {s u : State} (h : u.banks = s.banks) (b : BankId) : u.linked b = s.linked b := by
  unfold State.linked
  rw [h]

theorem landedWords_linked (s : State) (t : Target) (d : PDef) (sp : Span) (vals : List Word) (b : BankId) :
    (landedWords s t d sp vals).linked b = s.linked b :=
  State.linked_congr (by rw [landedWords, State.openProofs_frame]) b

/-! ### A landing touches no mailbox, unless it halts the node (R120, R477) -/

/-- The mailboxes of t are those of s, unless t is halted by class 4. -/
def State.HaltsOrKeeps (s t : State) : Prop := t.boot = 3 ∨ (t.mbx = s.mbx ∧ t.boot = s.boot)

theorem State.HaltsOrKeeps.refl (s : State) : s.HaltsOrKeeps s := .inr ⟨rfl, rfl⟩

theorem State.HaltsOrKeeps.trans {s t u : State} (h : s.HaltsOrKeeps t) (k : t.HaltsOrKeeps u) : s.HaltsOrKeeps u := by
  rcases k with k | ⟨km, kb⟩
  · exact .inl k
  · rcases h with h | ⟨hm, hb⟩
    · exact .inl (kb.trans h)
    · exact .inr ⟨km.trans hm, kb.trans hb⟩

theorem State.HaltsOrKeeps.each {α : Type} {f : α → State → State}
    (hf : ∀ a (t : State), t.HaltsOrKeeps (f a t)) (l : List α)
    (s : State) : s.HaltsOrKeeps (s.each l f) :=
  State.each_keeps (fun t => s.HaltsOrKeeps t) f (fun a t h => h.trans (hf a t)) l s (.refl s)

theorem State.haltRuns_boot (s : State) : s.haltRuns.boot = s.boot := rfl

theorem State.haltCommand_boot (m : MbId) (s : State) : (s.haltCommand m).boot = s.boot := by
  have h := s.haltCommand_told m
  unfold State.Told at h
  rw [h]

theorem State.class4Halt_boot (s : State) : s.class4Halt.boot = 3 := by
  rw [State.class4Halt, State.haltRuns_boot, State.each_proj _ (fun t => t.boot) _ State.haltCommand_boot]
  rfl

theorem State.raise1_halts (i : BlockId) (bit : Nat) (test : Bool) (s : State) : s.HaltsOrKeeps (s.raise1 i bit test).1 := by
  unfold State.raise1
  split
  · exact .refl s
  · simp only
    split
    · exact .inr ⟨rfl, rfl⟩
    · simp only
      split
      · exact .inl (State.class4Halt_boot _)
      · exact .inr ⟨rfl, rfl⟩

theorem State.requestSoft_halts (b : BankId) (s : State) : s.HaltsOrKeeps (s.requestSoft b) := by
  unfold State.requestSoft
  split
  · exact State.HaltsOrKeeps.trans (.inr ⟨rfl, rfl⟩) (State.raise1_halts _ _ _ _)
  · exact .refl s

theorem State.raise_halts (i : BlockId) (bit : Nat) (s : State) : s.HaltsOrKeeps (s.raise i bit) := by
  unfold State.raise State.raiseT
  simp only
  split
  · exact (s.raise1_halts i bit false).trans (.each State.requestSoft_halts _ _)
  · exact s.raise1_halts i bit false

theorem State.emuJudge_halts (n : EmuId) (s : State) : s.HaltsOrKeeps (s.emuJudge n) := by
  unfold State.emuJudge State.raiseIf
  simp only
  split
  · exact State.HaltsOrKeeps.trans (.inr ⟨rfl, rfl⟩) (State.raise_halts _ _ _)
  · exact .inr ⟨rfl, rfl⟩

theorem State.fbEvent_halts (n : FbId) (f : FbChan → FbChan × List Nat) (s : State) : s.HaltsOrKeeps (s.fbEvent n f) := by
  have follow (g h : FbChan) (u : State) : u.HaltsOrKeeps (u.emuFollow n g h) := by
    unfold State.emuFollow
    refine .each (fun _ v => ?_) _ u
    exact .inr ⟨rfl, rfl⟩
  have mod (g : FbChan → FbChan) : s.HaltsOrKeeps (s.modFb n g) := .inr ⟨rfl, rfl⟩
  exact ((mod _).trans (follow _ _ _)).trans
    ((HaltsOrKeeps.each State.emuJudge_halts _ _).trans (.each (fun _ _ => State.raise_halts _ _ _) _ _))

theorem State.emuApply_halts (n : EmuId) (s : State) : s.HaltsOrKeeps (s.emuApply n) := by
  unfold State.emuApply
  extract_lets keys differs free s1
  split
  · split <;> exact .inr ⟨rfl, rfl⟩
  · exact .refl s

theorem State.auxLand_halts (s : State) : s.HaltsOrKeeps s.auxLand := by
  unfold State.auxLand
  split
  · exact .refl s
  · simp only
    split <;> exact .inr ⟨rfl, rfl⟩

/-- What a landing does at once leaves the mailboxes, unless a fault that it raises halts the node. -/
theorem State.landEffect_halts (t : Target) (ident : Nat) (s old : State) : s.HaltsOrKeeps (s.landEffect t ident old) := by
  have same {u : State} (hm : u.mbx = s.mbx) (hb : u.boot = s.boot) : s.HaltsOrKeeps u := .inr ⟨hm, hb⟩
  cases t with
  | node =>
    simp only [State.landEffect]
    split
    · exact same rfl rfl
    · split <;> exact same rfl rfl
  | bank b =>
    simp only [State.landEffect]
    split
    · exact same rfl rfl
    · split <;> exact same rfl rfl
  | aux =>
    simp only [State.landEffect]
    split
    · exact same rfl rfl
    · split
      · exact same rfl rfl
      · split
        · exact (same rfl rfl).trans (State.auxLand_halts _)
        · split
          · exact State.auxLand_halts s
          · exact .refl s
  | fb n =>
    have enter : s.HaltsOrKeeps (if ident = 0x5000 ∧ (s.fbCfg n).mode ≠ (old.fbCfg n).mode then s.fbEnter n else s) := by
      split
      · exact State.fbEvent_halts _ _ s
      · exact .refl s
    simp only [State.landEffect]
    split
    · exact enter.trans (.inr ⟨rfl, rfl⟩)
    · exact enter
  | emu n => exact State.emuApply_halts n s
  | axis n => exact same rfl rfl
  | _ => exact .refl s

/-! ### A checked write -/

theorem State.setParam_error {e : ECode} {k : Nat}
    (h : checkSpan t (s.mbx[m].pay 1) (some (s.mbx[m].count - 1)) narrow = .error (e, k)) :
    s.setParam m t narrow = s.err m e k := by
  simp only [State.setParam, h]

variable (h : checkSpan t (s.mbx[m].pay 1) (some (s.mbx[m].count - 1)) narrow = .ok sp)
include h

theorem State.setParam_live {l : LDef} (hl : sp.id = .live l) : s.setParam m t narrow = s.err m .readonly 1 := by
  simp only [State.setParam, h, hl]

theorem State.setParam_refused (hd : sp.id = .param d) {e : ECode} {k : Nat}
    (he : s.writeErr t d sp.w0 (setWords s m d sp) = some (e, k)) : s.setParam m t narrow = s.err m e k := by
  unfold setWords at he
  simp only [State.setParam, h, hd, he]

theorem State.setParam_writes (hd : sp.id = .param d) (he : s.writeErr t d sp.w0 (setWords s m d sp) = none) :
    s.setParam m t narrow = s.writeSpan m t d sp.w0 (setWords s m d sp) := by
  unfold setWords at he ⊢
  simp only [State.setParam, h, hd, he]

omit h

/-- A write for a bank that is reached goes to it, with the landed words behind it. -/
theorem State.writeSpan_linked {b : BankId} (hh : d.bankHeld = true) (hb : t.bank? = some b) (hl : s.linked b = true) :
    s.writeSpan m t d sp.w0 (setWords s m d sp) =
      ((landedWords s t d sp (setWords s m d sp)).queueOp b
        (.write (keyOf (unitOf d.ident t) d.ident sp.w0) (setWords s m d sp)) sp.n (some m)).wait m (.bank b []) := by
  have l := (landedWords_linked s t d sp (setWords s m d sp) b).trans hl
  unfold landedWords at l ⊢
  simp only [State.writeSpan, hh, hb, l, if_true, setWords_length]

theorem State.writeSpan_unlinked {b : BankId} (hh : d.bankHeld = true) (hb : t.bank? = some b) (hl : s.linked b = false) :
    s.writeSpan m t d sp.w0 (setWords s m d sp) = (landedWords s t d sp (setWords s m d sp)).done m [] := by
  have l := (landedWords_linked s t d sp (setWords s m d sp) b).trans hl
  unfold landedWords at l ⊢
  simp only [State.writeSpan, hh, hb, l, if_true, Bool.false_eq_true, if_false]

/-- A write of the node's own is done with its landing. -/
theorem State.writeSpan_node (hh : d.bankHeld = false) (hi : d.ident ≠ 0x3004) :
    s.writeSpan m t d sp.w0 (setWords s m d sp) =
      ((landedWords s t d sp (setWords s m d sp)).landEffect t d.ident s).done m [] := by
  unfold landedWords
  cases t <;> simp [State.writeSpan, hh, hi]

/-- `QSDEC` of an axis goes to its bank too, where that is reached (R162, R169). -/
theorem State.writeSpan_qsdec {n : AxisId} (hh : d.bankHeld = false) (hi : d.ident = 0x3004) :
    s.writeSpan m (.axis n) d sp.w0 (setWords s m d sp) =
      (let v := (landedWords s (.axis n) d sp (setWords s m d sp)).landEffect (.axis n) d.ident s
       if s.linked (bankOf n) then
         v.queueOp (bankOf n) (.write (keyOf n.val 0x3004 sp.w0) (setWords s m d sp)) sp.n none
       else v).done m [] := by
  have l : ((landedWords s (.axis n) d sp (setWords s m d sp)).landEffect (.axis n) d.ident s).linked (bankOf n) =
      s.linked (bankOf n) := landedWords_linked s (.axis n) d sp _ _
  unfold landedWords at l ⊢
  simp only [hi, unitOf] at l
  simp [State.writeSpan, hh, hi, l, setWords_length, unitOf]

end Writes

/-- A command that a rung mailbox holds is taken while the node serves commands. -/
theorem State.takes_boot {s : State} {m : MbId} {abi op : Nat} {t : Target} (h : s.takes m abi op t = true) :
    s.boot ≠ 3 := by
  simp only [State.takes, State.due, State.serving, Bool.and_eq_true, decide_eq_true_eq] at h
  obtain ⟨⟨⟨⟨⟨⟨⟨⟨_, serving⟩, _⟩, _⟩, _⟩, _⟩, _⟩, _⟩, _⟩ := h
  rcases serving with e | e <;> simp [e]

/-- A command that writes a span does what R139 and R147 say of it. -/
theorem writeDoes {c : MbId → Instr} {abi op : Nat} {narrow : Bool}
    (hc : ∀ m s, exec (c m) s = .next (s.run m abi op fun t u => u.setParam m t narrow)) : WriteDoes c abi op narrow := by
  intro s m t ht
  rw [hc]
  refine ⟨fun e k h => State.run_err ht _ e k (State.setParam_error h) rfl, fun sp h => ⟨fun l hl => ?_, fun d hd =>
    ⟨fun e k he => ?_, fun he => ?_⟩⟩⟩
  · exact State.run_err ht _ _ _ (State.setParam_live h hl) rfl
  · exact State.run_err ht _ _ _ (State.setParam_refused h hd he) rfl
  · have w := State.setParam_writes h hd he
    have mbx : (landedWords s t d sp (setWords s m d sp)).mbx = s.mbx := landedWords_mbx _ _ _ _ _
    refine ⟨fun b hh hb hl => ?_, fun b hh hb hl => ?_, fun hh hi hboot => ?_, fun n hh hi hn => ?_⟩
    · exact State.run_wait ht _ _ (w.trans (State.writeSpan_linked hh hb hl)) mbx ⟨nofun, nofun⟩
    · exact State.run_done ht _ _ (w.trans (State.writeSpan_unlinked hh hb hl)) mbx
    · refine State.run_done ht _ _ (w.trans (State.writeSpan_node hh hi)) ?_
      rcases State.landEffect_halts t d.ident (landedWords s t d sp (setWords s m d sp)) s with e | e
      · exact absurd (hboot.symm.trans e) (State.takes_boot ht)
      · exact e.1.trans mbx
    · subst hn
      refine State.run_done ht _ _ (w.trans (State.writeSpan_qsdec hh hi)) ?_
      simp only
      split
      · exact mbx
      · exact mbx

theorem writesComplete : WritesComplete := ⟨writeDoes fun _ _ => rfl, writeDoes fun _ _ => rfl⟩

/-- Settles O2: the reads and the writes of a span, each for every command that makes it. -/
theorem parametersReadAndWrite : Obligations.ParametersReadAndWrite := ⟨readsComplete, writesComplete⟩

end Sys2Proof.Machine
end

section
/-! PROOF. A step and the front of the queue (R2). -/
namespace Sys2Proof.Machine

/-- Settles O54: both cases are the definition's own. -/
theorem stepRunsFront : Obligations.StepRunsFront :=
  ⟨fun _ _ _ => rfl, fun s h => by rw [step, h]⟩

end Sys2Proof.Machine
end

section
/-! PROOF. No command touches the queue or the part (R2). One lemma per function of the model, in its order;
`simp` composes them along the body of a function. -/
namespace Sys2Proof.Machine

@[simp] theorem State.ite_queue {c : Prop} [Decidable c] (s t : State) :
    (if c then s else t).pending = (if c then s.pending else t.pending) ∧
      (if c then s else t).part = if c then s.part else t.part :=
  ⟨apply_ite _ _ _ _, apply_ite _ _ _ _⟩

/-- A fold keeps the queue and the part when its step does. -/
theorem State.each_queue {α : Type} (l : List α) (f : α → State → State) (s : State)
    (hf : ∀ a t, (f a t).pending = t.pending ∧ (f a t).part = t.part) :
    (s.each l f).pending = s.pending ∧ (s.each l f).part = s.part :=
  ⟨State.each_proj s (·.pending) f (fun a t => (hf a t).1) l,
    State.each_proj s (·.part) f (fun a t => (hf a t).2) l⟩

@[simp] theorem State.each_pending {α : Type} (l : List α) (f : α → State → State) (s : State)
    (hf : ∀ a t, (f a t).pending = t.pending) : (s.each l f).pending = s.pending :=
  State.each_proj s (·.pending) f hf l

@[simp] theorem State.each_part {α : Type} (l : List α) (f : α → State → State) (s : State)
    (hf : ∀ a t, (f a t).part = t.part) : (s.each l f).part = s.part :=
  State.each_proj s (·.part) f hf l

@[simp] theorem State.each_modAxis_queue {α : Type} (l : List α) (n : α → AxisId) (f : α → State → Axis → Axis)
    (s : State) :
    (s.each l fun a t => t.modAxis (n a) (f a t)).pending = s.pending ∧
      (s.each l fun a t => t.modAxis (n a) (f a t)).part = s.part := State.each_queue _ _ _ fun _ _ => ⟨rfl, rfl⟩

@[simp] theorem State.each_modBank_queue {α : Type} (l : List α) (n : α → BankId) (f : α → State → Bank → Bank)
    (s : State) :
    (s.each l fun a t => t.modBank (n a) (f a t)).pending = s.pending ∧
      (s.each l fun a t => t.modBank (n a) (f a t)).part = s.part := State.each_queue _ _ _ fun _ _ => ⟨rfl, rfl⟩

@[simp] theorem State.each_modEmu_queue {α : Type} (l : List α) (n : α → EmuId) (f : α → State → Emu → Emu)
    (s : State) :
    (s.each l fun a t => t.modEmu (n a) (f a t)).pending = s.pending ∧
      (s.each l fun a t => t.modEmu (n a) (f a t)).part = s.part := State.each_queue _ _ _ fun _ _ => ⟨rfl, rfl⟩

/-! ### Ops -/

@[simp] theorem State.fresh_queue (s : State) :
    s.fresh.2.pending = s.pending ∧ s.fresh.2.part = s.part := by simp [State.fresh]

@[simp] theorem State.countBytes_queue (port bytes : Nat) (s : State) :
    (s.countBytes port bytes).pending = s.pending ∧ (s.countBytes port bytes).part = s.part := by
  simp [State.countBytes]

@[simp] theorem State.complete_queue (m : MbId) (st : BitVec 2) (ws : List Word) (s : State) :
    (s.complete m st ws).pending = s.pending ∧ (s.complete m st ws).part = s.part := by simp [State.complete]

@[simp] theorem State.done_queue (m : MbId) (ws : List Word) (s : State) :
    (s.done m ws).pending = s.pending ∧ (s.done m ws).part = s.part := by simp [State.done]

@[simp] theorem State.err_queue (m : MbId) (e : ECode) (detail : Nat) (s : State) :
    (s.err m e detail).pending = s.pending ∧ (s.err m e detail).part = s.part := by simp [State.err]

@[simp] theorem State.release_queue (m : MbId) (s : State) :
    (s.release m).pending = s.pending ∧ (s.release m).part = s.part := by
  unfold State.release
  split <;> simp

@[simp] theorem State.wait_queue (m : MbId) (w : Wait) (s : State) :
    (s.wait m w).pending = s.pending ∧ (s.wait m w).part = s.part := by simp [State.wait]

@[simp] theorem State.queueOp_queue (b : BankId) (op : RegOp) (slots : Nat) (mb : Option MbId) (s : State) :
    (s.queueOp b op slots mb).pending = s.pending ∧ (s.queueOp b op slots mb).part = s.part := by simp [State.queueOp]

@[simp] theorem State.forwardClear_queue (b : BankId) (reg : Nat) (mask : Word) (s : State) :
    (s.forwardClear b reg mask).pending = s.pending ∧ (s.forwardClear b reg mask).part = s.part := by
  simp [State.forwardClear]

@[simp] theorem State.modProof_queue (i : ProofId) (f : Proof → Proof) (s : State) :
    (s.modProof i f).pending = s.pending ∧ (s.modProof i f).part = s.part := by simp [State.modProof]

@[simp] theorem State.ackProofs_queue (i : BlockId) (m : BitVec 4) (s : State) :
    (s.ackProofs i m).pending = s.pending ∧ (s.ackProofs i m).part = s.part := by simp [State.ackProofs]

@[simp] theorem State.openProofs_queue (l : List ProofId) (s : State) :
    (s.openProofs l).pending = s.pending ∧ (s.openProofs l).part = s.part := by simp [State.openProofs]

@[simp] theorem State.clockTick_queue (s : State) :
    s.clockTick.pending = s.pending ∧ s.clockTick.part = s.part := by simp [State.clockTick]

@[simp] theorem State.clockGap_queue (s : State) :
    s.clockGap.pending = s.pending ∧ s.clockGap.part = s.part := by simp [State.clockGap]

/-! ### Flags -/

@[simp] theorem State.lockHalt_queue (s : State) :
    s.lockHalt.pending = s.pending ∧ s.lockHalt.part = s.part := by simp [State.lockHalt]

@[simp] theorem State.haltCommand_queue (m : MbId) (s : State) :
    (s.haltCommand m).pending = s.pending ∧ (s.haltCommand m).part = s.part := by simp [State.haltCommand]

@[simp] theorem State.haltRuns_queue (s : State) :
    s.haltRuns.pending = s.pending ∧ s.haltRuns.part = s.part := by simp [State.haltRuns]

@[simp] theorem State.class4Halt_queue (s : State) :
    s.class4Halt.pending = s.pending ∧ s.class4Halt.part = s.part := by simp [State.class4Halt]

@[simp] theorem State.react_queue (i : BlockId) (c code : Nat) (s : State) :
    (s.react i c code).pending = s.pending ∧ (s.react i c code).part = s.part := by simp [State.react]

@[simp] theorem State.raise1_queue (i : BlockId) (bit : Nat) (test : Bool) (s : State) :
    (s.raise1 i bit test).1.pending = s.pending ∧ (s.raise1 i bit test).1.part = s.part := by
  unfold State.raise1
  simp only
  (repeat' split) <;> simp

@[simp] theorem State.requestSoft_queue (b : BankId) (s : State) :
    (s.requestSoft b).pending = s.pending ∧ (s.requestSoft b).part = s.part := by simp [State.requestSoft]

@[simp] theorem State.raiseT_queue (i : BlockId) (bit : Nat) (test : Bool) (s : State) :
    (s.raiseT i bit test).1.pending = s.pending ∧ (s.raiseT i bit test).1.part = s.part := by
  unfold State.raiseT
  simp only
  split <;> simp

@[simp] theorem State.raise_queue (i : BlockId) (bit : Nat) (s : State) :
    (s.raise i bit).pending = s.pending ∧ (s.raise i bit).part = s.part := by simp [State.raise]

@[simp] theorem State.raiseIf_queue (c : Bool) (i : BlockId) (bit : Nat) (s : State) :
    (s.raiseIf c i bit).pending = s.pending ∧ (s.raiseIf c i bit).part = s.part := by simp [State.raiseIf]

/-! ### Feedback -/

@[simp] theorem State.atClock_queue (clock : Nat) (s : State) :
    (s.atClock clock).pending = s.pending ∧ (s.atClock clock).part = s.part := by simp [State.atClock]

@[simp] theorem State.emuJudge_queue (n : EmuId) (s : State) :
    (s.emuJudge n).pending = s.pending ∧ (s.emuJudge n).part = s.part := by simp [State.emuJudge]

@[simp] theorem State.emuLoad_queue (n : EmuId) (s : State) :
    (s.emuLoad n).pending = s.pending ∧ (s.emuLoad n).part = s.part := by simp [State.emuLoad]

@[simp] theorem State.emuApply_queue (n : EmuId) (s : State) :
    (s.emuApply n).pending = s.pending ∧ (s.emuApply n).part = s.part := by simp [State.emuApply]

@[simp] theorem State.emuFollow_queue (n : FbId) (f g : FbChan) (s : State) :
    (s.emuFollow n f g).pending = s.pending ∧ (s.emuFollow n f g).part = s.part := by simp [State.emuFollow]

@[simp] theorem State.fbEvent_queue (n : FbId) (f : FbChan → FbChan × List Nat) (s : State) :
    (s.fbEvent n f).pending = s.pending ∧ (s.fbEvent n f).part = s.part := by simp [State.fbEvent]

@[simp] theorem State.fbEnter_queue (n : FbId) (s : State) :
    (s.fbEnter n).pending = s.pending ∧ (s.fbEnter n).part = s.part := by simp [State.fbEnter]

/-! ### Kiln -/

@[simp] theorem State.sensorBroken_queue (b : BankId) (i : Fin 8) (s : State) :
    (s.sensorBroken b i).pending = s.pending ∧ (s.sensorBroken b i).part = s.part := by simp [State.sensorBroken]

@[simp] theorem State.dieRead_queue (reading : Half) (s : State) :
    (s.dieRead reading).pending = s.pending ∧ (s.dieRead reading).part = s.part := by simp [State.dieRead]

/-! ### Reset -/

@[simp] theorem State.resetStatus_queue (t : Target) (s : State) :
    (s.resetStatus t).pending = s.pending ∧ (s.resetStatus t).part = s.part := by
  unfold State.resetStatus
  split <;> simp

@[simp] theorem State.resetTarget_queue (t : Target) (mb : Option MbId) (s : State) :
    (s.resetTarget t mb).pending = s.pending ∧ (s.resetTarget t mb).part = s.part := by
  unfold State.resetTarget
  (repeat' split) <;> simp

/-! ### Params -/

@[simp] theorem State.getSpan_queue (m : MbId) (t : Target) (sp : Span) (active : Bool) (s : State) :
    (s.getSpan m t sp active).pending = s.pending ∧ (s.getSpan m t sp active).part = s.part := by
  unfold State.getSpan
  split
  · simp
  · split
    · simp
    · split <;> simp

@[simp] theorem State.getParam_queue (m : MbId) (t : Target) (active narrow : Bool) (s : State) :
    (s.getParam m t active narrow).pending = s.pending ∧ (s.getParam m t active narrow).part = s.part := by
  unfold State.getParam
  simp only
  split <;> simp

@[simp] theorem State.auxApply_queue (s : State) :
    s.auxApply.pending = s.pending ∧ s.auxApply.part = s.part := by simp [State.auxApply]

@[simp] theorem State.auxLand_queue (s : State) :
    s.auxLand.pending = s.pending ∧ s.auxLand.part = s.part := by simp [State.auxLand]

@[simp] theorem State.landEffect_queue (t : Target) (ident : Nat) (s old : State) :
    (s.landEffect t ident old).pending = s.pending ∧ (s.landEffect t ident old).part = s.part := by
  unfold State.landEffect
  split <;> simp

@[simp] theorem State.writeSpan_queue (m : MbId) (t : Target) (d : PDef) (w0 : Nat) (vals : List Word) (s : State) :
    (s.writeSpan m t d w0 vals).pending = s.pending ∧ (s.writeSpan m t d w0 vals).part = s.part := by
  unfold State.writeSpan
  split
  · simp
  · split <;> simp

@[simp] theorem State.setParam_queue (m : MbId) (t : Target) (narrow : Bool) (s : State) :
    (s.setParam m t narrow).pending = s.pending ∧ (s.setParam m t narrow).part = s.part := by
  unfold State.setParam
  simp only
  (repeat' split) <;> simp

/-! ### Mailbox -/

@[simp] theorem State.runReset_queue (m : MbId) (s : State) :
    (s.runReset m).pending = s.pending ∧ (s.runReset m).part = s.part := by
  unfold State.runReset
  split
  · simp
  · split <;> simp

@[simp] theorem State.xbufRun_queue (m : MbId) (s : State) :
    (s.xbufRun m).pending = s.pending ∧ (s.xbufRun m).part = s.part := by simp [State.xbufRun]

@[simp] theorem State.xbufCmd_queue (m : MbId) (a : Target) (s : State) :
    (s.xbufCmd m a).pending = s.pending ∧ (s.xbufCmd m a).part = s.part := by simp [State.xbufCmd]

@[simp] theorem State.settleOne_queue (m : MbId) (s : State) :
    (s.settleOne m).pending = s.pending ∧ (s.settleOne m).part = s.part := by
  unfold State.settleOne
  split
  · split <;> simp
  · simp

@[simp] theorem State.settle_queue (s : State) : s.settle.pending = s.pending ∧ s.settle.part = s.part := by
  have h : ∀ (k : Nat) (t : State),
      (State.settleN k t).pending = t.pending ∧ (State.settleN k t).part = t.part := by
    intro k
    induction k with
    | zero => exact fun t => ⟨rfl, rfl⟩
    | succ k ih => exact fun t => by simp [State.settleN, ih]
  exact h 8 s

@[simp] theorem State.run_queue (m : MbId) (abi op : Nat) (f : Target → State → State) (s : State)
    (hf : ∀ t u, (f t u).pending = u.pending ∧ (f t u).part = u.part) :
    (s.run m abi op f).pending = s.pending ∧ (s.run m abi op f).part = s.part := by
  unfold State.run
  split
  · split <;> simp [hf]
  · simp

@[simp] theorem State.ring_queue (m : MbId) (s : State) :
    (s.ring m).pending = s.pending ∧ (s.ring m).part = s.part := by
  unfold State.ring
  simp only
  (repeat' split) <;> simp

@[simp] theorem State.noWords_queue (m : MbId) (a : Target) (s : State) :
    (s.noWords m a).pending = s.pending ∧ (s.noWords m a).part = s.part := by simp [State.noWords]

@[simp] theorem State.identify_queue (m : MbId) (s : State) :
    (s.identify m).pending = s.pending ∧ (s.identify m).part = s.part := by simp [State.identify]

@[simp] theorem State.setVen_queue (n : AxisId) (v : Bool) (s : State) :
    (s.setVen n v).pending = s.pending ∧ (s.setVen n v).part = s.part := by simp [State.setVen]

@[simp] theorem State.enable_queue (m : MbId) (t : Target) (s : State) :
    (s.enable m t).pending = s.pending ∧ (s.enable m t).part = s.part := by
  unfold State.enable
  split <;> simp

@[simp] theorem State.resetBlock_queue (m : MbId) (t : Target) (s : State) :
    (s.resetBlock m t).pending = s.pending ∧ (s.resetBlock m t).part = s.part := by simp [State.resetBlock]

@[simp] theorem State.service_queue (m : MbId) (t : Target) (s : State) :
    (s.service m t).pending = s.pending ∧ (s.service m t).part = s.part := by
  unfold State.service
  split <;> simp

@[simp] theorem State.commitCmd_queue (m : MbId) (t : Target) (s : State) :
    (s.commitCmd m t).pending = s.pending ∧ (s.commitCmd m t).part = s.part := by simp [State.commitCmd]

@[simp] theorem State.storeCmd_queue (m : MbId) (a : Target) (s : State) :
    (s.storeCmd m a).pending = s.pending ∧ (s.storeCmd m a).part = s.part := by simp [State.storeCmd]

/-! ### AxisCmds -/

@[simp] theorem State.sendHarm_queue (m : MbId) (n : AxisId) (h : Vector (BitVec 16) 4) (s : State) :
    (s.sendHarm m n h).pending = s.pending ∧ (s.sendHarm m n h).part = s.part := by simp [State.sendHarm]

@[simp] theorem State.harmClear_queue (m : MbId) (t : Target) (s : State) :
    (s.harmClear m t).pending = s.pending ∧ (s.harmClear m t).part = s.part := by
  unfold State.harmClear
  split <;> simp

@[simp] theorem State.harmSet_queue (m : MbId) (t : Target) (s : State) :
    (s.harmSet m t).pending = s.pending ∧ (s.harmSet m t).part = s.part := by
  unfold State.harmSet
  split <;> simp

@[simp] theorem State.defaultTable_queue (n : AxisId) (s : State) :
    (s.defaultTable n).pending = s.pending ∧ (s.defaultTable n).part = s.part := by simp [State.defaultTable]

@[simp] theorem State.tableDefault_queue (m : MbId) (t : Target) (s : State) :
    (s.tableDefault m t).pending = s.pending ∧ (s.tableDefault m t).part = s.part := by
  unfold State.tableDefault
  split <;> simp

@[simp] theorem State.harmRefresh_queue (s : State) :
    s.harmRefresh.pending = s.pending ∧ s.harmRefresh.part = s.part := by simp [State.harmRefresh]

@[simp] theorem State.homingBackoff_queue (n : AxisId) (s : State) :
    (s.homingBackoff n).pending = s.pending ∧ (s.homingBackoff n).part = s.part := by simp [State.homingBackoff]

/-! ### Link -/

@[simp] theorem State.beginWord_queue (nth : Nat) (s : State) :
    (s.beginWord nth).pending = s.pending ∧ (s.beginWord nth).part = s.part := by simp [State.beginWord]

@[simp] theorem State.onLink_queue (f : State → State) (s : State)
    (hf : ∀ u, (f u).pending = u.pending ∧ (f u).part = u.part) :
    (s.onLink f).pending = s.pending ∧ (s.onLink f).part = s.part := by
  unfold State.onLink
  simp [hf]

@[simp] theorem State.batch_queue (mask : Word) (s : State) :
    (s.batch mask).pending = s.pending ∧ (s.batch mask).part = s.part := by simp [State.batch]

@[simp] theorem State.commitPair_queue (n : AxisId) (cmp : Bool) (v : Int) (s : State) :
    (s.commitPair n cmp v).pending = s.pending ∧ (s.commitPair n cmp v).part = s.part := by simp [State.commitPair]

@[simp] theorem State.landReg_queue (page : Byte) (i : Nat) (d m : Word) (s : State) :
    (s.landReg page i d m).pending = s.pending ∧ (s.landReg page i d m).part = s.part := by
  unfold State.landReg
  simp only
  (repeat' split) <;> simp

@[simp] theorem State.lands_queue (page : Byte) (s : State) :
    (s.lands page).pending = s.pending ∧ (s.lands page).part = s.part := by
  unfold State.lands
  split <;> simp

@[simp] theorem State.landPage_queue (page : Byte) (s : State) :
    (s.landPage page).pending = s.pending ∧ (s.landPage page).part = s.part := by
  unfold State.landPage
  exact State.each_queue _ (fun _ t => t.lands page) s fun _ _ => by simp

@[simp] theorem State.receive_queue (index : Nat) (word : Word) (s : State) :
    (s.receive index word).pending = s.pending ∧ (s.receive index word).part = s.part := by
  unfold State.receive
  simp only
  split <;> simp

@[simp] theorem State.receiveAt_queue (p : Byte → Bool) (slot : Slot) (word : Word) (s : State) :
    (s.receiveAt p slot word).pending = s.pending ∧ (s.receiveAt p slot word).part = s.part := by
  simp [State.receiveAt]

@[simp] theorem State.partialWord_queue (slot : Slot) (s : State) :
    (s.partialWord slot).pending = s.pending ∧ (s.partialWord slot).part = s.part := by simp [State.partialWord]

@[simp] theorem State.windowError_queue (s : State) :
    s.windowError.pending = s.pending ∧ s.windowError.part = s.part := by simp [State.windowError]

@[simp] theorem State.receiveSlot_queue (p : Slot → State → Bool) (slot : Slot) (word : Word) (s : State) :
    (s.receiveSlot p slot word).pending = s.pending ∧ (s.receiveSlot p slot word).part = s.part := by
  simp [State.receiveSlot]

@[simp] theorem State.sendStatus_queue (i : Nat) (sent : Sent) (load : Bool) (s : State) :
    (s.sendStatus i sent load).pending = s.pending ∧ (s.sendStatus i sent load).part = s.part := by
  simp [State.sendStatus]

@[simp] theorem State.sendWord_queue (w : Word) (s : State) :
    (s.sendWord w).pending = s.pending ∧ (s.sendWord w).part = s.part := by simp [State.sendWord]

@[simp] theorem State.sendWindow_queue (w : Word) (s : State) :
    (s.sendWindow w).pending = s.pending ∧ (s.sendWindow w).part = s.part := by simp [State.sendWindow]

@[simp] theorem State.readPageReg_queue (nth : Nat) (sent : Sent) (load : Bool) (s : State) :
    (s.readPageReg nth sent load).pending = s.pending ∧ (s.readPageReg nth sent load).part = s.part := by
  simp [State.readPageReg]

@[simp] theorem State.readNative_queue (slot : Slot) (sent : Sent) (load : Bool) (s : State) :
    (s.readNative slot sent load).pending = s.pending ∧ (s.readNative slot sent load).part = s.part := by
  unfold State.readNative
  simp only
  (repeat' split) <;> simp

@[simp] theorem State.readHalf_queue (slot : Slot) (sent : Sent) (s : State) :
    (s.readHalf slot sent).pending = s.pending ∧ (s.readHalf slot sent).part = s.part := by
  unfold State.readHalf
  simp only
  (repeat' split) <;> simp

@[simp] theorem State.readPage_queue (slot : Slot) (sent : Sent) (load : Bool) (s : State) :
    (s.readPage slot sent load).pending = s.pending ∧ (s.readPage slot sent load).part = s.part := by
  simp [State.readPage]

@[simp] theorem State.modQueue_queue (q : QueueRef) (f : Queue → Queue) (s : State) :
    (s.modQueue q f).pending = s.pending ∧ (s.modQueue q f).part = s.part := by
  unfold State.modQueue
  split <;> simp

@[simp] theorem State.fetchQueue_queue (pop : Bool) (sent : Sent) (collide : Bool) (s : State) :
    (s.fetchQueue pop sent collide).pending = s.pending ∧ (s.fetchQueue pop sent collide).part = s.part := by
  unfold State.fetchQueue
  split <;> simp

@[simp] theorem State.fetchTrace_queue (sent : Sent) (collide : Bool) (s : State) :
    (s.fetchTrace sent collide).pending = s.pending ∧ (s.fetchTrace sent collide).part = s.part := by
  simp [State.fetchTrace]

@[simp] theorem State.closedWindow_queue (s : State) :
    s.closedWindow.pending = s.pending ∧ s.closedWindow.part = s.part := by simp [State.closedWindow]

@[simp] theorem State.streamPoint_queue (n : AxisId) (p : Point) (s : State) :
    (s.streamPoint n p).pending = s.pending ∧ (s.streamPoint n p).part = s.part := by
  unfold State.streamPoint
  simp only
  split <;> simp

@[simp] theorem State.streamWord_queue (n : AxisId) (word : Word) (s : State) :
    (s.streamWord n word).pending = s.pending ∧ (s.streamWord n word).part = s.part := by
  unfold State.streamWord
  split <;> simp

@[simp] theorem State.windowWord_queue (w : WinId) (nth : Nat) (word : Word) (s : State) :
    (s.windowWord w nth word).pending = s.pending ∧ (s.windowWord w nth word).part = s.part := by
  unfold State.windowWord
  simp only
  split <;> simp

@[simp] theorem State.windowStatus_queue (w : WinId) (nth : Nat) (sent : Sent) (s : State) :
    (s.windowStatus w nth sent).pending = s.pending ∧ (s.windowStatus w nth sent).part = s.part := by
  unfold State.windowStatus
  simp only
  (repeat' split) <;> simp

@[simp] theorem State.pageWord_queue (nth : Nat) (word : Word) (cut : Bool) (s : State) :
    (s.pageWord nth word cut).pending = s.pending ∧ (s.pageWord nth word cut).part = s.part := by
  simp [State.pageWord]

@[simp] theorem State.hostWord_queue (slot : Slot) (word : Word) (cut : Bool) (s : State) :
    (s.hostWord slot word cut).pending = s.pending ∧ (s.hostWord slot word cut).part = s.part := by
  unfold State.hostWord
  simp only
  (repeat' split) <;> simp

@[simp] theorem State.linkReset_queue (s : State) :
    s.linkReset.pending = s.pending ∧ s.linkReset.part = s.part := by simp [State.linkReset]

/-! ### Bank -/

@[simp] theorem State.bankTell_queue (b : BankId) (e : BankEvent) (s : State) :
    (s.bankTell b e).pending = s.pending ∧ (s.bankTell b e).part = s.part := by simp [State.bankTell]

@[simp] theorem State.relevel_queue (b : BankId) (s : State) :
    (s.relevel b).pending = s.pending ∧ (s.relevel b).part = s.part := by simp [State.relevel]

@[simp] theorem State.forceSafe_queue (b : BankId) (bits : BitVec 5) (s : State) :
    (s.forceSafe b bits).pending = s.pending ∧ (s.forceSafe b bits).part = s.part := by simp [State.forceSafe]

@[simp] theorem State.inputSafe_queue (b : BankId) (bits : BitVec 5) (fault : Nat) (s : State) :
    (s.inputSafe b bits fault).pending = s.pending ∧ (s.inputSafe b bits fault).part = s.part := by
  simp [State.inputSafe]

@[simp] theorem State.channelOn_queue (b : BankId) (s : State) :
    (s.channelOn b).pending = s.pending ∧ (s.channelOn b).part = s.part := by simp [State.channelOn]

@[simp] theorem State.causeGone_queue (bits : BitVec 5) (s : State) :
    (s.causeGone bits).pending = s.pending ∧ (s.causeGone bits).part = s.part := by simp [State.causeGone]

@[simp] theorem State.clearLatch_queue (b : BankId) (bits : BitVec 5) (s : State) :
    (s.clearLatch b bits).pending = s.pending ∧ (s.clearLatch b bits).part = s.part := by simp [State.clearLatch]

@[simp] theorem State.lateCauses_queue (b : BankId) (s : State) :
    (s.lateCauses b).pending = s.pending ∧ (s.lateCauses b).part = s.part := by simp [State.lateCauses]

@[simp] theorem State.bankRun_queue (b : BankId) (s : State) :
    (s.bankRun b).pending = s.pending ∧ (s.bankRun b).part = s.part := by simp [State.bankRun]

@[simp] theorem State.takeHarm_queue (b : BankId) (p : Pos) (h : Vector (BitVec 16) 4) (s : State) :
    (s.takeHarm b p h).pending = s.pending ∧ (s.takeHarm b p h).part = s.part := by simp [State.takeHarm]

@[simp] theorem State.deliver_queue (b : BankId) (s : State) :
    (s.deliver b).pending = s.pending ∧ (s.deliver b).part = s.part := by simp [State.deliver]

@[simp] theorem State.deliverCopies_queue (b : BankId) (s : State) :
    (s.deliverCopies b).pending = s.pending ∧ (s.deliverCopies b).part = s.part := by simp [State.deliverCopies]

@[simp] theorem State.batchApply_queue (b : BankId) (s : State) :
    (s.batchApply b).pending = s.pending ∧ (s.batchApply b).part = s.part := by simp [State.batchApply]

@[simp] theorem State.rewritten_queue (key : Nat) (n : Nat) (s : State) :
    (s.rewritten key n).pending = s.pending ∧ (s.rewritten key n).part = s.part := by simp [State.rewritten]

@[simp] theorem State.bankWrite_queue (b : BankId) (key : Nat) (vals : List Word) (s : State) :
    (s.bankWrite b key vals).pending = s.pending ∧ (s.bankWrite b key vals).part = s.part := by simp [State.bankWrite]

@[simp] theorem State.bankRearm_queue (b : BankId) (p : Pos) (host : Bool) (s : State) :
    (s.bankRearm b p host).pending = s.pending ∧ (s.bankRearm b p host).part = s.part := by simp [State.bankRearm]

@[simp] theorem State.bankSwap_queue (b : BankId) (leg : LegId) (sel : BitVec 2) (ret : Bool) (tag : Nat) (s : State) :
    (s.bankSwap b leg sel ret tag).pending = s.pending ∧ (s.bankSwap b leg sel ret tag).part = s.part := by
  unfold State.bankSwap
  simp only
  split <;> simp

@[simp] theorem State.bankReset_queue (b : BankId) (s : State) :
    (s.bankReset b).pending = s.pending ∧ (s.bankReset b).part = s.part := by simp [State.bankReset]

@[simp] theorem State.bankOp_queue (b : BankId) (e : OpEntry) (s : State) :
    (s.bankOp b e).pending = s.pending ∧ (s.bankOp b e).part = s.part := by
  unfold State.bankOp
  split <;> simp

/-! ### ProofScan -/

@[simp] theorem State.countMiss_queue (s : State) (p : ProofId) :
    (s.countMiss p).pending = s.pending ∧ (s.countMiss p).part = s.part := by simp [State.countMiss]

@[simp] theorem State.raiseProof_queue (p : ProofId) (s : State) :
    (s.raiseProof p).pending = s.pending ∧ (s.raiseProof p).part = s.part := by simp [State.raiseProof]

@[simp] theorem State.takeProof_queue (p : ProofId) (v : Word) (s : State) :
    (s.takeProof p v).pending = s.pending ∧ (s.takeProof p v).part = s.part := by simp [State.takeProof]

@[simp] theorem State.commitFail_queue (c : CommitRun) (e : ECode) (s : State) :
    (s.commitFail c e).pending = s.pending ∧ (s.commitFail c e).part = s.part := by simp [State.commitFail]

@[simp] theorem State.commitEnd_queue (c : CommitRun) (s : State) :
    (s.commitEnd c).pending = s.pending ∧ (s.commitEnd c).part = s.part := by simp [State.commitEnd]

@[simp] theorem State.commitStart_queue (c : CommitRun) (s : State) :
    (s.commitStart c).pending = s.pending ∧ (s.commitStart c).part = s.part := by simp [State.commitStart]

@[simp] theorem State.bankProofs_queue (b : BankId) (v : Vector Word 5) (s : State) :
    (s.bankProofs b v).pending = s.pending ∧ (s.bankProofs b v).part = s.part := by
  unfold State.bankProofs
  extract_lets s1 run s2
  have hbank := State.takeProof_queue (.bank b) v[0] s
  have haxes : s1.pending = (s.takeProof (.bank b) v[0]).pending ∧ s1.part = (s.takeProof (.bank b) v[0]).part :=
    State.each_queue allPos (fun p t => t.takeProof (.axisB (axisAt b p)) (v.toList.getD (p.val + 1) 0)) _
      fun _ t => State.takeProof_queue _ _ t
  clear_value s1
  have hs2 : s2.pending = s1.pending ∧ s2.part = s1.part := ⟨rfl, rfl⟩
  clear_value s2
  rw [hbank.1, hbank.2, ← hs2.1, ← hs2.2] at haxes
  rw [← haxes.1, ← haxes.2]
  refine State.each_queue _ _ s2 fun c t => ?_
  split
  · split <;> simp
  · simp

@[simp] theorem State.upset_queue (r : Record) (s : State) :
    (s.upset r).pending = s.pending ∧ (s.upset r).part = s.part := by simp [State.upset]

@[simp] theorem State.proofScan_queue (s : State) :
    s.proofScan.pending = s.pending ∧ s.proofScan.part = s.part := by simp [State.proofScan]

/-! ### BankLink -/

@[simp] theorem State.discardDown_queue (b : BankId) (s : State) :
    (s.discardDown b).pending = s.pending ∧ (s.discardDown b).part = s.part := by simp [State.discardDown]

@[simp] theorem State.executePacket_queue (b : BankId) (d : DPacket) (s : State) :
    (s.executePacket b d).pending = s.pending ∧ (s.executePacket b d).part = s.part := by simp [State.executePacket]

@[simp] theorem State.receiveDown_queue (b : BankId) (d : DPacket) (s : State) :
    (s.receiveDown b d).pending = s.pending ∧ (s.receiveDown b d).part = s.part := by simp [State.receiveDown]

@[simp] theorem State.downstream_queue (b : BankId) (ok : Bool) (s : State) :
    (s.downstream b ok).pending = s.pending ∧ (s.downstream b ok).part = s.part := by
  unfold State.downstream
  simp only
  split <;> simp

@[simp] theorem State.sendUp_queue (b : BankId) (s : State) :
    (s.sendUp b).pending = s.pending ∧ (s.sendUp b).part = s.part := by simp [State.sendUp]

@[simp] theorem State.endAxisTick_queue (b : BankId) (p : Pos) (s : State) :
    (s.endAxisTick b p).pending = s.pending ∧ (s.endAxisTick b p).part = s.part := by simp [State.endAxisTick]

@[simp] theorem State.orphanTick_queue (b : BankId) (s : State) :
    (s.orphanTick b).pending = s.pending ∧ (s.orphanTick b).part = s.part := by simp [State.orphanTick]

@[simp] theorem State.decideAxis_queue (b : BankId) (p : Pos) (s : State) :
    (s.decideAxis b p).pending = s.pending ∧ (s.decideAxis b p).part = s.part := by simp [State.decideAxis]

@[simp] theorem State.bankTick_queue (b : BankId) (s : State) :
    (s.bankTick b).pending = s.pending ∧ (s.bankTick b).part = s.part := by simp [State.bankTick]

@[simp] theorem State.failOps_queue (b : BankId) (s : State) :
    (s.failOps b).pending = s.pending ∧ (s.failOps b).part = s.part := by simp [State.failOps]

@[simp] theorem State.discardUp_queue (b : BankId) (u : UPacket) (s : State) :
    (s.discardUp b u).pending = s.pending ∧ (s.discardUp b u).part = s.part := by simp [State.discardUp]

@[simp] theorem State.takeFaults_queue (b : BankId) (before : Word) (u : UPacket) (s : State) :
    (s.takeFaults b before u).pending = s.pending ∧ (s.takeFaults b before u).part = s.part := by
  simp [State.takeFaults]

@[simp] theorem State.takeKiln_queue (b : BankId) (u : UPacket) (s : State) :
    (s.takeKiln b u).pending = s.pending ∧ (s.takeKiln b u).part = s.part := by simp [State.takeKiln]

@[simp] theorem State.takeRecord_queue (b : BankId) (w : Vector (Word × Word × Word) 4) (p : Pos) (s : State) :
    (s.takeRecord b w p).pending = s.pending ∧ (s.takeRecord b w p).part = s.part := by simp [State.takeRecord]

@[simp] theorem State.takeEvent_queue (b : BankId) (u : UPacket) (e : BankEvent) (s : State) :
    (s.takeEvent b u e).pending = s.pending ∧ (s.takeEvent b u e).part = s.part := by
  unfold State.takeEvent
  (repeat' split) <;> simp

@[simp] theorem State.takeDrops_queue (b : BankId) (u : UPacket) (s : State) :
    (s.takeDrops b u).pending = s.pending ∧ (s.takeDrops b u).part = s.part := by simp [State.takeDrops]

@[simp] theorem State.opAcked_queue (b : BankId) (e : OpEntry) (ws : List Word) (s : State) :
    (s.opAcked b e ws).pending = s.pending ∧ (s.opAcked b e ws).part = s.part := by
  unfold State.opAcked
  extract_lets s1
  have h1 : s1.pending = s.pending ∧ s1.part = s.part := by
    unfold s1
    generalize e.op = op, e.mb = mb
    cases op
    case proof => exact State.bankProofs_queue _ _ _
    case live =>
      cases mb with
      | none =>
        dsimp only
        split
        · exact ⟨rfl, rfl⟩
        · split <;> exact ⟨rfl, rfl⟩
      | some m => exact ⟨rfl, rfl⟩
    all_goals exact ⟨rfl, rfl⟩
  clear_value s1
  split
  · exact h1
  · split <;> simp [h1]

@[simp] theorem State.askAgain_queue (b : BankId) (e : OpEntry) (s : State) :
    (s.askAgain b e).pending = s.pending ∧ (s.askAgain b e).part = s.part := by
  unfold State.askAgain
  split <;> simp

@[simp] theorem State.takeAcks_queue (b : BankId) (u : UPacket) (s : State) :
    (s.takeAcks b u).pending = s.pending ∧ (s.takeAcks b u).part = s.part := by simp [State.takeAcks]

@[simp] theorem State.softAcked_queue (b : BankId) (s : State) :
    (s.softAcked b).pending = s.pending ∧ (s.softAcked b).part = s.part := by
  unfold State.softAcked
  refine State.each_queue _ _ (s.modBank b _) fun m t => ?_
  split <;> simp

@[simp] theorem State.takeFlags_queue (b : BankId) (u : UPacket) (s : State) :
    (s.takeFlags b u).pending = s.pending ∧ (s.takeFlags b u).part = s.part := by simp [State.takeFlags]

@[simp] theorem State.takeState_queue (b : BankId) (s : State) :
    (s.takeState b).pending = s.pending ∧ (s.takeState b).part = s.part := by
  unfold State.takeState
  refine State.each_queue _ _ s fun m t => ?_
  split <;> simp

@[simp] theorem State.loadQueue_queue (b : BankId) (ws : List Word) (s : State) :
    (s.loadQueue b ws).pending = s.pending ∧ (s.loadQueue b ws).part = s.part := by simp [State.loadQueue]

@[simp] theorem State.judgeResume_queue (b : BankId) (u : UPacket) (s : State) :
    (s.judgeResume b u).pending = s.pending ∧ (s.judgeResume b u).part = s.part := by simp [State.judgeResume]

@[simp] theorem State.takeUp_queue (b : BankId) (u : UPacket) (s : State) :
    (s.takeUp b u).pending = s.pending ∧ (s.takeUp b u).part = s.part := by simp [State.takeUp]

@[simp] theorem State.upstream_queue (b : BankId) (ok : Bool) (s : State) :
    (s.upstream b ok).pending = s.pending ∧ (s.upstream b ok).part = s.part := by
  unfold State.upstream
  split <;> simp

@[simp] theorem State.bankLinkLost_queue (b : BankId) (s : State) :
    (s.bankLinkLost b).pending = s.pending ∧ (s.bankLinkLost b).part = s.part := by simp [State.bankLinkLost]

@[simp] theorem State.nodeLinkLost_queue (b : BankId) (s : State) :
    (s.nodeLinkLost b).pending = s.pending ∧ (s.nodeLinkLost b).part = s.part := by simp [State.nodeLinkLost]

@[simp] theorem State.initialise_queue (b : BankId) (s : State) :
    (s.initialise b).pending = s.pending ∧ (s.initialise b).part = s.part := by simp [State.initialise]

@[simp] theorem State.axesOff_queue (b : BankId) (s : State) :
    (s.axesOff b).pending = s.pending ∧ (s.axesOff b).part = s.part := by simp [State.axesOff]

@[simp] theorem State.linkUp_queue (b : BankId) (s : State) :
    (s.linkUp b).pending = s.pending ∧ (s.linkUp b).part = s.part := by simp [State.linkUp]

@[simp] theorem State.reinitialise_queue (b : BankId) (s : State) :
    (s.reinitialise b).pending = s.pending ∧ (s.reinitialise b).part = s.part := by simp [State.reinitialise]

@[simp] theorem State.orphanEnd_queue (b : BankId) (s : State) :
    (s.orphanEnd b).pending = s.pending ∧ (s.orphanEnd b).part = s.part := by simp [State.orphanEnd]

@[simp] theorem State.supplyUp_queue (b : BankId) (s : State) :
    (s.supplyUp b).pending = s.pending ∧ (s.supplyUp b).part = s.part := by simp [State.supplyUp]

@[simp] theorem State.supplyDown_queue (b : BankId) (s : State) :
    (s.supplyDown b).pending = s.pending ∧ (s.supplyDown b).part = s.part := by simp [State.supplyDown]

@[simp] theorem State.serviceEntry_queue (b : BankId) (s : State) :
    (s.serviceEntry b).pending = s.pending ∧ (s.serviceEntry b).part = s.part := by simp [State.serviceEntry]

@[simp] theorem State.safeAssert_queue (stop : Bool) (b : BankId) (s : State) :
    (s.safeAssert stop b).pending = s.pending ∧ (s.safeAssert stop b).part = s.part := by simp [State.safeAssert]

@[simp] theorem State.clockLoss_queue (b : BankId) (s : State) :
    (s.clockLoss b).pending = s.pending ∧ (s.clockLoss b).part = s.part := by simp [State.clockLoss]

/-! ### UnitCmds -/

@[simp] theorem State.forceBanks_queue (m : MbId) (l : List BankId) (s : State) :
    (s.forceBanks m l).pending = s.pending ∧ (s.forceBanks m l).part = s.part := by simp [State.forceBanks]

@[simp] theorem State.safeForce_queue (m : MbId) (t : Target) (s : State) :
    (s.safeForce m t).pending = s.pending ∧ (s.safeForce m t).part = s.part := by
  unfold State.safeForce
  split <;> simp

@[simp] theorem State.safeReleaseCmd_queue (m : MbId) (t : Target) (s : State) :
    (s.safeReleaseCmd m t).pending = s.pending ∧ (s.safeReleaseCmd m t).part = s.part := by
  unfold State.safeReleaseCmd
  split <;> simp

@[simp] theorem State.spareSwap_queue (m : MbId) (t : Target) (s : State) :
    (s.spareSwap m t).pending = s.pending ∧ (s.spareSwap m t).part = s.part := by
  unfold State.spareSwap
  split <;> simp

@[simp] theorem State.spareReturn_queue (m : MbId) (t : Target) (s : State) :
    (s.spareReturn m t).pending = s.pending ∧ (s.spareReturn m t).part = s.part := by
  unfold State.spareReturn
  split <;> simp

@[simp] theorem State.queueFlush_queue (m : MbId) (t : Target) (s : State) :
    (s.queueFlush m t).pending = s.pending ∧ (s.queueFlush m t).part = s.part := by
  unfold State.queueFlush
  split <;> simp

@[simp] theorem State.fbSet_queue (m : MbId) (t : Target) (s : State) :
    (s.fbSet m t).pending = s.pending ∧ (s.fbSet m t).part = s.part := by
  unfold State.fbSet
  split <;> simp

@[simp] theorem State.fbXref_queue (m : MbId) (t : Target) (s : State) :
    (s.fbXref m t).pending = s.pending ∧ (s.fbXref m t).part = s.part := by
  unfold State.fbXref
  split <;> simp

@[simp] theorem State.kilnRestore_queue (m : MbId) (t : Target) (s : State) :
    (s.kilnRestore m t).pending = s.pending ∧ (s.kilnRestore m t).part = s.part := by
  unfold State.kilnRestore
  split <;> simp

@[simp] theorem State.faultLog_queue (m : MbId) (a : Target) (s : State) :
    (s.faultLog m a).pending = s.pending ∧ (s.faultLog m a).part = s.part := by simp [State.faultLog]

@[simp] theorem State.faultTest_queue (m : MbId) (t : Target) (s : State) :
    (s.faultTest m t).pending = s.pending ∧ (s.faultTest m t).part = s.part := by
  unfold State.faultTest
  simp only
  (repeat' split) <;> simp

/-! ### Entry -/

@[simp] theorem State.entryFault_queue (bit : Nat) (s : State) :
    (s.entryFault bit).pending = s.pending ∧ (s.entryFault bit).part = s.part := by simp [State.entryFault]

@[simp] theorem State.halfCycle_queue (rms : Half) (s : State) :
    (s.halfCycle rms).pending = s.pending ∧ (s.halfCycle rms).part = s.part := by simp [State.halfCycle]

@[simp] theorem State.budgetUpdate_queue (pin : Half) (s : State) :
    (s.budgetUpdate pin).pending = s.pending ∧ (s.budgetUpdate pin).part = s.part := by simp [State.budgetUpdate]

@[simp] theorem State.mainsFreq_queue (s : State) :
    s.mainsFreq.pending = s.pending ∧ s.mainsFreq.part = s.part := by simp [State.mainsFreq]

@[simp] theorem State.mainsLoss_queue (s : State) :
    s.mainsLoss.pending = s.pending ∧ s.mainsLoss.part = s.part := by simp [State.mainsLoss]

@[simp] theorem State.mainsReturn_queue (s : State) :
    s.mainsReturn.pending = s.pending ∧ s.mainsReturn.part = s.part := by simp [State.mainsReturn]

@[simp] theorem State.refuse_queue (cause : BitVec 4) (bit : Nat) (s : State) :
    (s.refuse cause bit).pending = s.pending ∧ (s.refuse cause bit).part = s.part := by simp [State.refuse]

@[simp] theorem State.capacitance_queue (rise : Word) (s : State) :
    (s.capacitance rise).pending = s.pending ∧ (s.capacitance rise).part = s.part := by simp [State.capacitance]

@[simp] theorem State.chopperTest_queue (i bus : Nat) (s : State) :
    (s.chopperTest i bus).pending = s.pending ∧ (s.chopperTest i bus).part = s.part := by simp [State.chopperTest]

@[simp] theorem State.accountEmpty_queue (s : State) :
    s.accountEmpty.pending = s.pending ∧ s.accountEmpty.part = s.part := by simp [State.accountEmpty]

@[simp] theorem State.entryRestart_queue (m : MbId) (a : Target) (s : State) :
    (s.entryRestart m a).pending = s.pending ∧ (s.entryRestart m a).part = s.part := by simp [State.entryRestart]

@[simp] theorem State.busDischarge_queue (m : MbId) (a : Target) (s : State) :
    (s.busDischarge m a).pending = s.pending ∧ (s.busDischarge m a).part = s.part := by simp [State.busDischarge]

@[simp] theorem State.kntc_queue (temp : Byte) (plausible : Bool) (vkeep : Half) (s : State) :
    (s.kntc temp plausible vkeep).pending = s.pending ∧ (s.kntc temp plausible vkeep).part = s.part := by
  simp [State.kntc]

@[simp] theorem State.vkeepLoss_queue (s : State) :
    s.vkeepLoss.pending = s.pending ∧ s.vkeepLoss.part = s.part := by simp [State.vkeepLoss]

/-! ### LegEvents -/

@[simp] theorem State.modLegs_queue (n : AxisId) (f : LegsBank → LegsBank) (s : State) :
    (s.modLegs n f).pending = s.pending ∧ (s.modLegs n f).part = s.part := by simp [State.modLegs]

@[simp] theorem State.afterStep2_queue (n : AxisId) (s : State) :
    (s.afterStep2 n).pending = s.pending ∧ (s.afterStep2 n).part = s.part := by simp [State.afterStep2]

@[simp] theorem State.tellRelease_queue (n : AxisId) (i : BlockId) (bit : Nat) (s : State) :
    (s.tellRelease n i bit).pending = s.pending ∧ (s.tellRelease n i bit).part = s.part := by simp [State.tellRelease]

@[simp] theorem State.endBankRelease_queue (b : BankId) (n : AxisId) (s : State) :
    (s.endBankRelease b n).pending = s.pending ∧ (s.endBankRelease b n).part = s.part := by
  simp [State.endBankRelease]

@[simp] theorem State.legFault_queue (n : AxisId) (f : LegFault) (leg : Pos) (blocks : Bool) (s : State) :
    (s.legFault n f leg blocks).pending = s.pending ∧ (s.legFault n f leg blocks).part = s.part := by
  simp [State.legFault]

@[simp] theorem State.bankFault_queue (b : BankId) (high : Bool) (bit : Nat) (s : State) :
    (s.bankFault b high bit).pending = s.pending ∧ (s.bankFault b high bit).part = s.part := by simp [State.bankFault]

@[simp] theorem State.toStep2_queue (n : AxisId) (s : State) :
    (s.toStep2 n).pending = s.pending ∧ (s.toStep2 n).part = s.part := by simp [State.toStep2]

@[simp] theorem State.phaseFault_queue (n : AxisId) (phB : Bool) (bit : Nat) (s : State) :
    (s.phaseFault n phB bit).pending = s.pending ∧ (s.phaseFault n phB bit).part = s.part := by
  simp [State.phaseFault]

@[simp] theorem State.releaseAxis_queue (n : AxisId) (cause : BlockId × Nat) (s : State) :
    (s.releaseAxis n cause).pending = s.pending ∧ (s.releaseAxis n cause).part = s.part := by simp [State.releaseAxis]

@[simp] theorem State.parityFail_queue (b : BankId) (keys : List Nat) (s : State) :
    (s.parityFail b keys).pending = s.pending ∧ (s.parityFail b keys).part = s.part := by simp [State.parityFail]

@[simp] theorem State.tellSwapFail_queue (b : BankId) (n : AxisId) (seriesOk : Bool) (s : State) :
    (s.tellSwapFail b n seriesOk).pending = s.pending ∧ (s.tellSwapFail b n seriesOk).part = s.part := by
  simp [State.tellSwapFail]

@[simp] theorem State.swapComplete_queue (b : BankId) (checkOk seriesOk : Bool) (s : State) :
    (s.swapComplete b checkOk seriesOk).pending = s.pending ∧ (s.swapComplete b checkOk seriesOk).part = s.part := by
  unfold State.swapComplete
  split <;> simp

/-! ### MemPort -/

@[simp] theorem State.xqueue_queue (k : XKind) (addr : Nat) (slot : BitVec 2) (s : State) :
    (s.xqueue k addr slot).pending = s.pending ∧ (s.xqueue k addr slot).part = s.part := by simp [State.xqueue]

@[simp] theorem State.endIf_queue (m : MbId) (w : Wait) (f : State → State) (s : State)
    (hf : ∀ u, (f u).pending = u.pending ∧ (f u).part = u.part) :
    (s.endIf m w f).pending = s.pending ∧ (s.endIf m w f).part = s.part := by
  unfold State.endIf
  simp [hf]

@[simp] theorem State.startOp_queue (o : ProgOp) (s : State) :
    (s.startOp o).1.pending = s.pending ∧ (s.startOp o).1.part = s.part := by
  unfold State.startOp
  simp only
  split <;> simp

@[simp] theorem State.runsGo_queue (s : State) : s.runsGo.pending = s.pending ∧ s.runsGo.part = s.part := by
  have h : ∀ (k : Nat) (t : State),
      (State.advanceRuns k t).pending = t.pending ∧ (State.advanceRuns k t).part = t.part := by
    intro k
    induction k with
    | zero => exact fun t => ⟨rfl, rfl⟩
    | succ k ih =>
      intro t
      unfold State.advanceRuns
      split
      · simp
      · simp [ih]
  exact h 8 s

@[simp] theorem State.flushBuffer_queue (s : State) :
    s.flushBuffer.pending = s.pending ∧ s.flushBuffer.part = s.part := by
  unfold State.flushBuffer
  split <;> simp

@[simp] theorem State.serveReads_queue (s : State) :
    s.serveReads.pending = s.pending ∧ s.serveReads.part = s.part := by
  unfold State.serveReads
  refine State.each_queue _ _ s fun a t => ?_
  split <;> simp

@[simp] theorem State.windowRead_queue (o : BitVec 28) (s : State) :
    (s.windowRead o).pending = s.pending ∧ (s.windowRead o).part = s.part := by simp [State.windowRead]

@[simp] theorem State.storeByte_queue (o : Nat) (v : Byte) (s : State) :
    (s.storeByte o v).pending = s.pending ∧ (s.storeByte o v).part = s.part := by simp [State.storeByte]

@[simp] theorem State.applyFrame_queue (s : State) :
    s.applyFrame.pending = s.pending ∧ s.applyFrame.part = s.part := by simp [State.applyFrame]

@[simp] theorem State.transferStart_queue (s : State) :
    s.transferStart.pending = s.pending ∧ s.transferStart.part = s.part := by
  unfold State.transferStart
  split <;> simp

@[simp] theorem State.fetchEnd_queue (n : AxisId) (k : Nat) (rx : List Byte) (s : State) :
    (s.fetchEnd n k rx).pending = s.pending ∧ (s.fetchEnd n k rx).part = s.part := by simp [State.fetchEnd]

@[simp] theorem State.opReady_queue (o : ProgOp) (s : State) :
    (s.opReady o).pending = s.pending ∧ (s.opReady o).part = s.part := by
  unfold State.opReady
  simp only
  (repeat' split) <;> simp

@[simp] theorem State.opTimeout_queue (o : ProgOp) (s : State) :
    (s.opTimeout o).pending = s.pending ∧ (s.opTimeout o).part = s.part := by
  unfold State.opTimeout
  split <;> simp

@[simp] theorem State.pollEnd_queue (slot : BitVec 2) (rx : List Byte) (s : State) :
    (s.pollEnd slot rx).pending = s.pending ∧ (s.pollEnd slot rx).part = s.part := by
  unfold State.pollEnd
  split <;> simp

@[simp] theorem State.fwBytes_queue (at_ : Nat) (rx : List Byte) (n : Nat) (s : State) :
    (s.fwBytes at_ rx n).pending = s.pending ∧ (s.fwBytes at_ rx n).part = s.part := by simp [State.fwBytes]

@[simp] theorem State.serve_queue (r : XReq) (rx : List Byte) (holds : Half) (verified : Bool) (s : State) :
    (s.serve r rx holds verified).pending = s.pending ∧ (s.serve r rx holds verified).part = s.part := by
  unfold State.serve
  split <;> simp

@[simp] theorem State.fwFetchEnd_queue (r : XReq) (s : State) :
    (s.fwFetchEnd r).pending = s.pending ∧ (s.fwFetchEnd r).part = s.part := by
  unfold State.fwFetchEnd
  split <;> simp

@[simp] theorem State.transferEnd_queue (rx : List Byte) (holds : Half) (verified : Bool) (s : State) :
    (s.transferEnd rx holds verified).pending = s.pending ∧ (s.transferEnd rx holds verified).part = s.part := by
  unfold State.transferEnd
  split <;> simp

@[simp] theorem State.statusPoll_queue (s : State) :
    s.statusPoll.pending = s.pending ∧ s.statusPoll.part = s.part := by simp [State.statusPoll]

@[simp] theorem State.memXfer_queue (m : MbId) (a : Target) (s : State) :
    (s.memXfer m a).pending = s.pending ∧ (s.memXfer m a).part = s.part := by simp [State.memXfer]

@[simp] theorem State.startRun_queue (m : MbId) (r : ProgRun) (s : State) :
    (s.startRun m r).pending = s.pending ∧ (s.startRun m r).part = s.part := by simp [State.startRun]

@[simp] theorem State.memProg_queue (m : MbId) (a : Target) (s : State) :
    (s.memProg m a).pending = s.pending ∧ (s.memProg m a).part = s.part := by simp [State.memProg]

@[simp] theorem State.memErase_queue (m : MbId) (a : Target) (s : State) :
    (s.memErase m a).pending = s.pending ∧ (s.memErase m a).part = s.part := by simp [State.memErase]

@[simp] theorem State.requestFetch_queue (n : AxisId) (s : State) :
    (s.requestFetch n).pending = s.pending ∧ (s.requestFetch n).part = s.part := by
  unfold State.requestFetch
  split <;> simp

/-! ### MotionCmds -/

@[simp] theorem State.landMotion_queue (n : AxisId) (armed : Bool) (c : Staged) (s : State) :
    (s.landMotion n armed c).pending = s.pending ∧ (s.landMotion n armed c).part = s.part := by
  simp [State.landMotion]

@[simp] theorem State.doMotion_queue (m : MbId) (n : AxisId) (armed : Bool) (c : Staged) (s : State) :
    (s.doMotion m n armed c).pending = s.pending ∧ (s.doMotion m n armed c).part = s.part := by simp [State.doMotion]

@[simp] theorem State.motion_queue (m : MbId) (f : AxisId → State → Except (ECode × Nat) (Bool × Staged)) (t : Target)
    (s : State) :
    (s.motion m f t).pending = s.pending ∧ (s.motion m f t).part = s.part := by
  unfold State.motion
  (repeat' split) <;> simp

@[simp] theorem State.stopCmd_queue (m : MbId) (quick : Bool) (t : Target) (s : State) :
    (s.stopCmd m quick t).pending = s.pending ∧ (s.stopCmd m quick t).part = s.part := by
  unfold State.stopCmd
  split <;> simp

@[simp] theorem State.setPosition_queue (m : MbId) (t : Target) (s : State) :
    (s.setPosition m t).pending = s.pending ∧ (s.setPosition m t).part = s.part := by
  unfold State.setPosition
  split <;> simp

@[simp] theorem State.homeCmd_queue (m : MbId) (t : Target) (s : State) :
    (s.homeCmd m t).pending = s.pending ∧ (s.homeCmd m t).part = s.part := by
  unfold State.homeCmd
  split
  · split <;> simp
  · simp

/-! ### StreamCmds -/

@[simp] theorem State.openStream_queue (m : MbId) (n : AxisId) (s : State) :
    (s.openStream m n).pending = s.pending ∧ (s.openStream m n).part = s.part := by simp [State.openStream]

@[simp] theorem State.closeStream_queue (m : MbId) (n : AxisId) (s : State) :
    (s.closeStream m n).pending = s.pending ∧ (s.closeStream m n).part = s.part := by simp [State.closeStream]

@[simp] theorem State.startStreams_queue (m : MbId) (l : List AxisId) (timing : Word) (detail : Nat) (s : State) :
    (s.startStreams m l timing detail).pending = s.pending ∧ (s.startStreams m l timing detail).part = s.part := by
  unfold State.startStreams
  split
  · simp
  · split <;> simp

@[simp] theorem State.streamStart_queue (m : MbId) (t : Target) (s : State) :
    (s.streamStart m t).pending = s.pending ∧ (s.streamStart m t).part = s.part := by
  unfold State.streamStart
  split <;> simp

@[simp] theorem State.flushStream_queue (m : MbId) (n : AxisId) (s : State) :
    (s.flushStream m n).pending = s.pending ∧ (s.flushStream m n).part = s.part := by simp [State.flushStream]

@[simp] theorem State.stepEdge_queue (n : AxisId) (rising dirHigh fast : Bool) (s : State) :
    (s.stepEdge n rising dirHigh fast).pending = s.pending ∧ (s.stepEdge n rising dirHigh fast).part = s.part := by
  simp [State.stepEdge]

/-! ### Power -/

@[simp] theorem State.nodeReset_queue (cmpt reaction : Bool) (s : State) :
    (s.nodeReset cmpt reaction).pending = s.pending ∧ (s.nodeReset cmpt reaction).part = s.part := by
  simp [State.nodeReset]

@[simp] theorem State.powerLoss_queue (s : State) :
    s.powerLoss.pending = s.pending ∧ s.powerLoss.part = s.part := by simp [State.powerLoss]

@[simp] theorem State.powerOn_queue (cmpt : Bool) (s : State) :
    (s.powerOn cmpt).pending = s.pending ∧ (s.powerOn cmpt).part = s.part := by simp [State.powerOn]

@[simp] theorem State.nodeResetDue_queue (s : State) :
    s.nodeResetDue.pending = s.pending ∧ s.nodeResetDue.part = s.part := by simp [State.nodeResetDue]

@[simp] theorem State.referenceLoss_queue (s : State) :
    s.referenceLoss.pending = s.pending ∧ s.referenceLoss.part = s.part := by simp [State.referenceLoss]

@[simp] theorem State.debugHalt_queue (s : State) :
    s.debugHalt.pending = s.pending ∧ s.debugHalt.part = s.part := by simp [State.debugHalt]

@[simp] theorem State.processorRuns_queue (s : State) :
    s.processorRuns.pending = s.pending ∧ s.processorRuns.part = s.part := by simp [State.processorRuns]

@[simp] theorem State.prepareReset_queue (i : BlockId) (s : State) :
    (s.prepareReset i).pending = s.pending ∧ (s.prepareReset i).part = s.part := by
  unfold State.prepareReset
  split <;> simp

@[simp] theorem State.blockReset_queue (i : BlockId) (s : State) :
    (s.blockReset i).pending = s.pending ∧ (s.blockReset i).part = s.part := by
  unfold State.blockReset
  simp only
  (repeat' split) <;> simp

@[simp] theorem State.blockResets_queue (s : State) :
    s.blockResets.pending = s.pending ∧ s.blockResets.part = s.part := by simp [State.blockResets]

@[simp] theorem State.nmiEntry_queue (s : State) :
    s.nmiEntry.pending = s.pending ∧ s.nmiEntry.part = s.part := by simp [State.nmiEntry]

/-! ### Firmware -/

@[simp] theorem State.putRecord_queue (load : Bool) (key : Nat) (v : Word) (s : State) :
    (s.putRecord load key v).pending = s.pending ∧ (s.putRecord load key v).part = s.part := by simp [State.putRecord]

@[simp] theorem State.restoreSet_queue (place : Nat → Option Nat) (layout : Half) (l : List Record) (s : State) :
    (s.restoreSet place layout l).1.pending = s.pending ∧ (s.restoreSet place layout l).1.part = s.part := by
  unfold State.restoreSet
  extract_lets own same conv
  split
  · simp
  · refine State.each_queue _ _ s fun r t => ?_
    split <;> simp

@[simp] theorem State.restoreConfig_queue (s : State) :
    s.restoreConfig.pending = s.pending ∧ s.restoreConfig.part = s.part := by
  unfold State.restoreConfig
  split <;> simp

@[simp] theorem State.applyRestored_queue (s : State) :
    s.applyRestored.pending = s.pending ∧ s.applyRestored.part = s.part := by simp [State.applyRestored]

@[simp] theorem State.restorePositions_queue (s : State) :
    s.restorePositions.pending = s.pending ∧ s.restorePositions.part = s.part := by simp [State.restorePositions]

@[simp] theorem State.starterBoot_queue (imgA imgB imgExt : ImageCheck) (s : State) :
    (s.starterBoot imgA imgB imgExt).pending = s.pending ∧ (s.starterBoot imgA imgB imgExt).part = s.part := by
  simp [State.starterBoot]

@[simp] theorem State.sendSet_queue (s : State) :
    s.sendSet.pending = s.pending ∧ s.sendSet.part = s.part := by simp [State.sendSet]

@[simp] theorem State.firmwareStart_queue (s : State) :
    s.firmwareStart.pending = s.pending ∧ s.firmwareStart.part = s.part := by
  unfold State.firmwareStart
  split <;> simp

@[simp] theorem State.storeComplete_queue (verified : Bool) (s : State) :
    (s.storeComplete verified).pending = s.pending ∧ (s.storeComplete verified).part = s.part := by
  unfold State.storeComplete
  split <;> simp

@[simp] theorem State.poslogWrite_queue (verified : Bool) (s : State) :
    (s.poslogWrite verified).pending = s.pending ∧ (s.poslogWrite verified).part = s.part := by
  unfold State.poslogWrite
  split <;> simp

@[simp] theorem State.mramWrite_queue (m : MbId) (verified : Bool) (f : State → State) (s : State)
    (hf : (f s).pending = s.pending ∧ (f s).part = s.part) :
    (s.mramWrite m verified f).pending = s.pending ∧ (s.mramWrite m verified f).part = s.part := by
  unfold State.mramWrite
  simp [hf]

@[simp] theorem State.fwBegin_queue (m : MbId) (verified : Bool) (a : Target) (s : State) :
    (s.fwBegin m verified a).pending = s.pending ∧ (s.fwBegin m verified a).part = s.part := by simp [State.fwBegin]

@[simp] theorem State.fwWrite_queue (m : MbId) (verified : Bool) (a : Target) (s : State) :
    (s.fwWrite m verified a).pending = s.pending ∧ (s.fwWrite m verified a).part = s.part := by
  unfold State.fwWrite
  split <;> simp

@[simp] theorem State.fwFetch_queue (m : MbId) (a : Target) (s : State) :
    (s.fwFetch m a).pending = s.pending ∧ (s.fwFetch m a).part = s.part := by simp [State.fwFetch]

@[simp] theorem State.fwVerify_queue (m : MbId) (check : ImageCheck) (verified : Bool) (a : Target) (s : State) :
    (s.fwVerify m check verified a).pending = s.pending ∧ (s.fwVerify m check verified a).part = s.part := by
  simp [State.fwVerify]

@[simp] theorem State.fwSwap_queue (m : MbId) (verified : Bool) (a : Target) (s : State) :
    (s.fwSwap m verified a).pending = s.pending ∧ (s.fwSwap m verified a).part = s.part := by simp [State.fwSwap]

@[simp] theorem State.fwConfirm_queue (m : MbId) (verified : Bool) (a : Target) (s : State) :
    (s.fwConfirm m verified a).pending = s.pending ∧ (s.fwConfirm m verified a).part = s.part := by
  simp [State.fwConfirm]

@[simp] theorem State.bootCfg_queue (m : MbId) (verified : Bool) (a : Target) (s : State) :
    (s.bootCfg m verified a).pending = s.pending ∧ (s.bootCfg m verified a).part = s.part := by simp [State.bootCfg]

@[simp] theorem State.nvClear_queue (m : MbId) (verified : Bool) (a : Target) (s : State) :
    (s.nvClear m verified a).pending = s.pending ∧ (s.nvClear m verified a).part = s.part := by simp [State.nvClear]

@[simp] theorem State.swapPause_queue (s : State) :
    s.swapPause.pending = s.pending ∧ s.swapPause.part = s.part := by
  unfold State.swapPause
  split <;> simp

@[simp] theorem State.swapHandover_queue (s : State) :
    s.swapHandover.pending = s.pending ∧ s.swapHandover.part = s.part := by
  unfold State.swapHandover
  split <;> simp

@[simp] theorem State.swapTimeout_queue (s : State) :
    s.swapTimeout.pending = s.pending ∧ s.swapTimeout.part = s.part := by
  unfold State.swapTimeout
  split <;> simp

@[simp] theorem State.trialTimeout_queue (s : State) :
    s.trialTimeout.pending = s.pending ∧ s.trialTimeout.part = s.part := by
  unfold State.trialTimeout
  split <;> simp

/-! ### Pair -/

@[simp] theorem State.heartbeatSend_queue (s : State) :
    s.heartbeatSend.pending = s.pending ∧ s.heartbeatSend.part = s.part := by simp [State.heartbeatSend]

@[simp] theorem State.clearBank_queue (c : BankId) (s : State) :
    (s.clearBank c).pending = s.pending ∧ (s.clearBank c).part = s.part := by simp [State.clearBank]

@[simp] theorem State.takeBank_queue (b : Fin 6) (s : State) :
    (s.takeBank b).pending = s.pending ∧ (s.takeBank b).part = s.part := by
  unfold State.takeBank
  simp only
  split <;> simp

@[simp] theorem State.heartbeatInterval_queue (silent : BitVec 6) (s : State) :
    (s.heartbeatInterval silent).pending = s.pending ∧ (s.heartbeatInterval silent).part = s.part := by
  simp [State.heartbeatInterval]

@[simp] theorem State.pairHandover_queue (m : MbId) (a : Target) (s : State) :
    (s.pairHandover m a).pending = s.pending ∧ (s.pairHandover m a).part = s.part := by simp [State.pairHandover]

@[simp] theorem State.pairRelease_queue (m : MbId) (a : Target) (s : State) :
    (s.pairRelease m a).pending = s.pending ∧ (s.pairRelease m a).part = s.part := by simp [State.pairRelease]

@[simp] theorem State.handOverEdge_queue (s : State) :
    s.handOverEdge.pending = s.pending ∧ s.handOverEdge.part = s.part := by
  unfold State.handOverEdge
  split <;> simp

@[simp] theorem State.attachBank_queue (b : Fin 6) (c : BankId) (values : List Record) (axes : Vector HandedAxis 24) (s : State) :
    (s.attachBank b c values axes).pending = s.pending ∧ (s.attachBank b c values axes).part = s.part := by
  simp [State.attachBank]

@[simp] theorem State.handOverReceive_queue (values : List Record) (axes : Vector HandedAxis 24) (s : State) :
    (s.handOverReceive values axes).pending = s.pending ∧ (s.handOverReceive values axes).part = s.part := by
  simp [State.handOverReceive]

/-! ### PwmTrigger -/

@[simp] theorem State.releaseRun_queue (b : BankId) (s : State) :
    (s.releaseRun b).pending = s.pending ∧ (s.releaseRun b).part = s.part := by simp [State.releaseRun]

@[simp] theorem State.takeTable_queue (b : BankId) (p : Pos) (s : State) :
    (s.takeTable b p).pending = s.pending ∧ (s.takeTable b p).part = s.part := by simp [State.takeTable]

@[simp] theorem State.axisPeriod_queue (b : BankId) (p : Pos) (s : State) :
    (s.axisPeriod b p).pending = s.pending ∧ (s.axisPeriod b p).part = s.part := by simp [State.axisPeriod]

@[simp] theorem State.periodStart_queue (b : BankId) (s : State) :
    (s.periodStart b).pending = s.pending ∧ (s.periodStart b).part = s.part := by simp [State.periodStart]

@[simp] theorem State.observe_queue (b : BankId) (p : Pos) (smp : Sample) (vb t : Int) (s : State) :
    (s.observe b p smp vb t).pending = s.pending ∧ (s.observe b p smp vb t).part = s.part := by simp [State.observe]

@[simp] theorem State.phaseCentre_queue (b : BankId) (p : Pos) (phB : Bool) (smp : Sample) (vb t : Int) (s : State) :
    (s.phaseCentre b p phB smp vb t).pending = s.pending ∧ (s.phaseCentre b p phB smp vb t).part = s.part := by
  simp [State.phaseCentre]

@[simp] theorem State.axisCentre_queue (b : BankId) (smp : Sample) (vbus t next : Int) (p : Pos) (s : State) :
    (s.axisCentre b smp vbus t next p).pending = s.pending ∧ (s.axisCentre b smp vbus t next p).part = s.part := by
  simp [State.axisCentre]

@[simp] theorem State.releaseTrigger_queue (b : BankId) (smp : Sample) (p : Pos) (s : State) :
    (s.releaseTrigger b smp p).pending = s.pending ∧ (s.releaseTrigger b smp p).part = s.part := by
  simp [State.releaseTrigger]

@[simp] theorem State.sampled_queue (b : BankId) (t : BitVec 2) (smp : Sample) (at_ : Int) (s : State) :
    (s.sampled b t smp at_).pending = s.pending ∧ (s.sampled b t smp at_).part = s.part := by simp [State.sampled]

@[simp] theorem State.trigger_queue (b : BankId) (t : BitVec 2) (smp : Sample) (s : State) :
    (s.trigger b t smp).pending = s.pending ∧ (s.trigger b t smp).part = s.part := by
  unfold State.trigger
  split
  · split <;> simp
  · simp

@[simp] theorem State.bankCal_queue (m : MbId) (t : Target) (s : State) :
    (s.bankCal m t).pending = s.pending ∧ (s.bankCal m t).part = s.part := by
  unfold State.bankCal
  split <;> simp

/-! ### Sequencer -/

@[simp] theorem State.auxMiss_queue (s : State) :
    s.auxMiss.pending = s.pending ∧ s.auxMiss.part = s.part := by simp [State.auxMiss]

@[simp] theorem State.auxTrigger_queue (k : Nat) (s : State) :
    (s.auxTrigger k).pending = s.pending ∧ (s.auxTrigger k).part = s.part := by simp [State.auxTrigger]

@[simp] theorem State.auxSync_queue (b : BankId) (centre : Bool) (s : State) :
    (s.auxSync b centre).pending = s.pending ∧ (s.auxSync b centre).part = s.part := by simp [State.auxSync]

@[simp] theorem State.auxNext_queue (s : State) :
    s.auxNext.pending = s.pending ∧ s.auxNext.part = s.part := by simp [State.auxNext]

@[simp] theorem State.auxDone_queue (code0 code1 : Half) (s : State) :
    (s.auxDone code0 code1).pending = s.pending ∧ (s.auxDone code0 code1).part = s.part := by simp [State.auxDone]

@[simp] theorem State.gpioEdge_queue (p : PinId) (level : Bool) (s : State) :
    (s.gpioEdge p level).pending = s.pending ∧ (s.gpioEdge p level).part = s.part := by simp [State.gpioEdge]

@[simp] theorem State.loadInterval_queue (s : State) :
    s.loadInterval.pending = s.pending ∧ s.loadInterval.part = s.part := by simp [State.loadInterval]

@[simp] theorem State.sample_queue (user : Bool) (addr enc latency stamp : Word) (s : State) :
    (s.sample user addr enc latency stamp).pending = s.pending ∧ (s.sample user addr enc latency stamp).part = s.part := by
  simp [State.sample]

/-! ### The tick edge -/

theorem State.edgeStart_queue (pins : BitVec 24) (s : State) :
    (s.edgeStart pins).pending = s.pending ∧ (s.edgeStart pins).part = s.part := by
  simp [State.edgeStart]

theorem State.EdgeKeeps.queue {s t : State} (k : s.EdgeKeeps t) : t.pending = s.pending ∧ t.part = s.part := by
  rw [k.frame]
  exact ⟨rfl, rfl⟩

theorem State.tickEdge_queue (pins : BitVec 24) (s : State) :
    (s.tickEdge pins).pending = s.pending ∧ (s.tickEdge pins).part = s.part := by
  by_cases h : s.powered ∧ s.refOk
  · obtain ⟨a, z, w, l, ha, hz, -, rfl, e⟩ := State.tickEdge_runs pins h.1 h.2
    have kept := ((ha.trans (.engineSteps s a)).trans (hz.trans (State.latches_keep l z))).queue
    rw [e]
    simp [kept, State.edgeStart_queue]
  · rw [State.tickEdge, if_neg h]
    exact ⟨rfl, rfl⟩

/-! ### The outcome of a command -/

theorem next_queue {u t s : State} (h : Host.Outcome.next (φ := Fault) (ρ := Refusal) u = .next t)
    (hu : u.pending = s.pending ∧ u.part = s.part) : t.pending = s.pending ∧ t.part = s.part := by
  cases h
  exact hu

theorem next_ite_queue {c : Prop} [Decidable c] {u v t s : State}
    (h : (if c then Host.Outcome.next (φ := Fault) (ρ := Refusal) u else .next v) = .next t)
    (hu : u.pending = s.pending ∧ u.part = s.part) (hv : v.pending = s.pending ∧ v.part = s.part) :
    t.pending = s.pending ∧ t.part = s.part := by
  split at h
  · exact next_queue h hu
  · exact next_queue h hv

/-- Settles O55: a command's step is made of functions that keep the queue and the part. -/
theorem queueUntouched : Obligations.QueueUntouched := by
  intro c s t h
  cases c with
  | tickEdge pins => exact next_queue h (State.tickEdge_queue pins s)
  | poslogRead =>
    refine next_queue h (State.run_queue _ _ _ _ s fun t u => ?_)
    simp only
    split <;> simp
  | operationTimeout =>
    refine next_queue h (State.each_queue _ _ s fun o t => ?_)
    split
    · split <;> simp
    · simp
  | comparePulseStart => exact next_queue h (by split <;> exact ⟨rfl, rfl⟩)
  | blindmv | holdDelayExpire | i2tEmpty | i2tRefilled | triesReset | serialWordRequest | fbStandstill =>
    exact next_ite_queue h (by simp) (by simp)
  | streamOpen | streamClose | streamFlush | streamAck =>
    exact next_queue h (State.run_queue _ _ _ _ s fun t u => by split <;> simp)
  | streamWindowWrite | windowStatusRead => exact next_queue h (State.onLink_queue _ s fun u => by split <;> simp)
  | gateSupplyRecover => exact next_queue h (by split <;> simp)
  | hostWrite | pageWrite | hlcfgWrite | compatWrite | hlsyncRead | wideLowRead | wideLowWrite | wideHighWrite
  | sframeLowHalfRead | queuePop | queuePeek | tracePop | linkReset | mailboxRing | batchWrite | nerrRelease
  | faultAcknowledge | frxWrite | nrstPulse | powerOnResetEnd | nodePowerLoss | vauxChangeover | starterBoot
  | firmwareStart | referenceLoss | referenceReturn | debugHalt | debugResume | nop | identify | getParam
  | setParam | getActive | commit | store | fence | enable | service | resetBlock | sIdent | sGet | sSet | sCommit
  | sStore | sEnable | sMove | sVelocity | sStop | sReset | moveTo | moveBy | velocity | stop | setPosition
  | streamStart | harmClear | harmSet | tableDefault | home | safeForce | safeRelease | spareSwap | spareReturn
  | queueFlush | fbSet | fbXref | entryRestart | busDischarge | kilnRestore | faultLog | faultTest | memXfer
  | xbufPut | xbufGet | memProg | memErase | fwInfo | fwBegin | fwWrite | fwFetch | fwVerify | fwSwap | fwConfirm
  | bootCfg | nvClear | keepRead | fuseBlow | pairHandover | pairRelease | bankCal | bankCalComplete
  | homingBackoff | proofScan | harmonicCopyRefresh | poslogEntryWrite | downstreamPacketReceive
  | upstreamPacketCheck | bankTickEdge | bankLinkLost | nodeLinkLost | recoveredClockLoss | bankRelock
  | bankReinitialise | orphanDecelEnd | bankSupplyUp | bankSupplyDown | bankLinkUp | pwmClockLoss | pwmPeriodStart
  | triggerEvent | parityScan | phaseSaturation | openPhase | trackingError | desaturation | overcurrent
  | gateSupplyUv | interlock | busOvervoltage | driverRailUv | releaseTimeout | retryWaitExpire | spareSwapComplete
  | serviceEntry | safeInputAssert | safeInputRelease | mainsHalfCycle | budgetUpdate | mainsLoss | mainsLow
  | mainsHighRecover | mainsFreq | mainsReturn | prechargeStart | capacitanceCheck | inrushClose | entryRun
  | prechargeTimeout | refusalExpire | overloadEmpty | overloadRefilled | chopperSwitch | choplong | pfcOvervoltage
  | busLow | auxConverterSwitch | activeDischargeStart | dischargeEnd | dischargeAccountEmpty | dischargeResume
  | outputCurrentLimit | kntcMeasure | vkeepLoss | sensorBroken | dieSensorRead | blockResetReaction
  | nodeResetReaction | nmiEntry | nerrMinExpire | transferStart | transferEnd | windowStore | windowRead
  | writeBufferFlush | statusPoll | streamFetch | fetchFail | swapPause | swapHandover | swapTimeout | trialTimeout
  | heartbeatSend | heartbeatReceive | heartbeatIntervalEnd | mirroredSetReceive | fbTransition | indexEvent
  | serialWordEnd | serialWordTimeout | emulatorStep | stepEdge | gpioEdge | comparePulseEnd | auxTimerTick
  | auxConversionStart | auxConversionDone | sampleIntervalExpire | bandwidthWindowEnd | writeLands | overrunRead
  | privilegedIndexRead | auxPwmSync | handOverReceive | storeComplete | dischargeReaches60V | pwmClockReturn =>
    exact next_queue h (by simp)

end Sys2Proof.Machine
end

section
/-! SUPPORT. The host link: words received while the node has power, what a received word leaves, and the landing of a
word behind the earlier writes of its page (R55, R59, R68, R71, R81, R97). -/
namespace Sys2Proof.Machine

/-! ## Power and counted bytes (R81, R553) -/

theorem State.onLink_powered {s : State} (h : s.powered = true) (f : State → State) : s.onLink f = f s := if_pos h

theorem State.onLink_unpowered {s : State} (h : s.powered = false) (f : State → State) : s.onLink f = s :=
  if_neg (by rw [h]; decide)

/-- Counting bytes changes a running count alone. -/
theorem State.countBytes_frame (port n : Nat) (s : State) :
    s.countBytes port n = { s with perf := { s.perf with count := (s.countBytes port n).perf.count } } := by
  unfold State.countBytes
  split <;> rfl

@[simp] theorem State.countBytes_link (port n : Nat) (s : State) : (s.countBytes port n).link = s.link := by
  rw [State.countBytes_frame]

/-! ## What a received word leaves beside the link -/

theorem LinkIs.refl (s : State) : LinkIs s s s.link := rfl

section LinkIs
variable {s u : State} {l : Link}

theorem LinkIs.link (h : LinkIs s u l) : u.link = l := by rw [h]

/-- Bytes counted at a port. -/
theorem LinkIs.count (h : LinkIs s u l) (port n : Nat) : LinkIs s (u.countBytes port n) l := by
  rw [LinkIs, State.countBytes_frame, h]

/-- Another state of the link. -/
theorem LinkIs.setLink (h : LinkIs s u l) (k : Link) : LinkIs s { u with link := k } k := by
  rw [LinkIs, h]

/-- A change of the link's state. -/
theorem LinkIs.modLink (h : LinkIs s u l) (f : Link → Link) : LinkIs s { u with link := f u.link } (f l) := by
  obtain rfl := h.link
  exact h.setLink _

theorem LinkIs.windowError (h : LinkIs s u l) : LinkIs s u.windowError { l with winerr := true } :=
  h.modLink fun k => { k with winerr := true }

end LinkIs

theorem beginWord_linkIs (s : State) (nth : Nat) : LinkIs s (s.beginWord nth) (s.link.begin nth) := rfl

theorem heard_linkIs (s : State) (nth : Nat) : LinkIs s (heard s nth) (s.link.begin nth) :=
  (beginWord_linkIs s nth).count 0 _

/-- A transaction keeps the page and the count of posted writes that it begins with (R74). -/
@[simp] theorem Link.begin_page (nth : Nat) (l : Link) : (l.begin nth).page = l.page := by
  unfold Link.begin
  split <;> rfl

@[simp] theorem Link.begin_posted (nth : Nat) (l : Link) : (l.begin nth).posted = l.posted := by
  unfold Link.begin
  split <;> rfl

@[simp] theorem Link.begin_wres (nth : Nat) (l : Link) : (l.begin nth).wres = l.wres := by
  unfold Link.begin
  split <;> rfl

/-- A further word of a transaction begins nothing (R74). -/
theorem State.beginWord_later {nth : Nat} (h : nth ≠ 0) (s : State) : s.beginWord nth = s := by
  simp only [State.beginWord, Link.begin, if_neg h]

/-! ## Words received (R55, R59, R60, R66) -/

section Receive
variable {s : State} {nth i j : Nat} {word d m : Word}

theorem heard_counts (s : State) (nth : Nat) :
    (s.beginWord nth).countBytes 0 (s.beginWord nth).link.wordBytes = heard s nth := rfl

@[simp] theorem heard_link (s : State) (nth : Nat) : (heard s nth).link = s.link.begin nth := (heard_linkIs s nth).link

/-- A word that its register accepts is posted. -/
theorem State.receive_accepted {l : Link} (hl : l = s.link.begin nth) (hp : l.place i word = some (j, d, m))
    (ha : (heard s nth).accepts l.page j d m = true) :
    (s.beginWord nth).receive i word =
      { heard s nth with link := { l.accept with posted := l.posted ++ [(⟨l.page, j, d, m⟩ : Posted)] } } := by
  subst hl
  simp only [State.receive, heard_counts, heard_link, hp, ha, if_true]

/-- A word that its register does not accept, or that lies past the end, is not accepted. -/
theorem State.receive_refused {l : Link} (hl : l = s.link.begin nth)
    (h : ∀ j d m, l.place i word = some (j, d, m) → (heard s nth).accepts l.page j d m = false) :
    (s.beginWord nth).receive i word = { heard s nth with link := l.reject } := by
  subst hl
  simp only [State.receive, heard_counts, heard_link]
  split
  · rename_i j d m hp
    simp only [h j d m hp, Bool.false_eq_true, if_false]
  · rfl

end Receive

/-- A partial word within an ordinary page, or of a privileged one, is discarded and counted (R71). -/
theorem State.partialWord_counts {slot : Slot} {s : State} (h : slot.index.toNat + slot.nth ≤ 0x7e) :
    s.partialWord slot = { s with link := s.link.partial_ } := by
  have : ¬ 0x7e < slot.index.toNat + slot.nth := by omega
  simp [State.partialWord, this]

/-! ## HOST_WRITE and PAGE_WRITE -/

section HostWrite
variable {s : State} {slot : Slot} {word : Word}

theorem exec_hostWrite (hp : s.powered = true) (cut : Bool) :
    exec (.hostWrite slot word cut) s = .next (s.hostWord slot word cut) :=
  congrArg Host.Outcome.next (State.onLink_powered hp _)

theorem State.hostWord_cut (hi : slot.index ≠ 0x7f) (hc : slot.index.toNat + slot.nth ≤ 0x7e) :
    s.hostWord slot word true = { s.beginWord slot.nth with link := (s.link.begin slot.nth).partial_ } := by
  rw [State.hostWord, if_neg hi, if_pos rfl, State.partialWord_counts hc]
  rfl

theorem State.hostWord_ordinary (hi : slot.index ≠ 0x7f) (hq : privileged s.part s.link.page = false) :
    s.hostWord slot word false = (s.beginWord slot.nth).receive (slot.index.toNat + slot.nth) word := by
  have page : (s.beginWord slot.nth).link.page = s.link.page := Link.begin_page _ _
  have part : (s.beginWord slot.nth).part = s.part := rfl
  rw [State.hostWord, if_neg hi, if_neg (by decide), part, page, hq, if_neg (by decide)]

/-- A privileged page discards a word, but for the one that a stream window takes (R68). -/
theorem State.hostWord_privileged (hi : slot.index ≠ 0x7f) (hq : privileged s.part s.link.page = true)
    (hw : slot.index ≠ 0 ∨ windowOf s.link.page = none) :
    s.hostWord slot word false = ((s.beginWord slot.nth).countBytes 0 4).windowError := by
  have page : (s.beginWord slot.nth).link.page = s.link.page := Link.begin_page _ _
  have part : (s.beginWord slot.nth).part = s.part := rfl
  rw [State.hostWord, if_neg hi, if_neg (by decide), part, page, if_pos hq]
  rcases hw with hw | hw
  · simp only [if_neg hw]
    split <;> rfl
  · rw [hw]

theorem exec_pageWrite (hp : s.powered = true) (nth : Nat) (word : Word) : exec (.pageWrite nth word false) s =
    .next { heard s nth with link := if nth = 0 then { (s.link.begin nth).accept with page := word.extractLsb' 0 8 }
                                     else (s.link.begin nth).reject } := by
  have link : ((s.beginWord nth).countBytes 0 (s.beginWord nth).link.wordBytes).link = s.link.begin nth := by
    rw [State.countBytes_link, State.beginWord]
  change Host.Outcome.next (s.onLink (State.pageWord nth word false)) = _
  simp only [State.onLink_powered hp, State.pageWord, Bool.false_eq_true, if_false, link]
  split <;> rfl

end HostWrite

/-! ## Landing (R82, R84, R97) -/

theorem State.lands_none {s : State} {page : Byte} (h : (s.link.posted.find? fun q => q.page = page) = none) :
    s.lands page = s := by
  rw [State.lands, h]

/-- The oldest posted write of a page leaves the queue, counts, and reaches its register. -/
theorem State.lands_oldest {s : State} {page : Byte} {p : Posted}
    (h : (s.link.posted.find? fun q => q.page = page) = some p) :
    s.lands page = { s with link := { s.link with posted := s.link.posted.erase p, landed := s.link.landed + 1 } }.landReg
      page p.index p.data p.mask := by
  have hp : p.page = page := by simpa using List.find?_some h
  simp only [State.lands, h, hp]

section LandReg
variable {s : State} {page : Byte} {i : Nat} {d m : Word}

/-! What a landing does to each kind of register (R82, R90). -/

theorem State.landReg_nothing (h : s.regAt page i = .nothing) : s.landReg page i d m = s := by
  simp only [State.landReg, h]

theorem State.landReg_cmd {x : MbId} {k : Fin 16} (h : s.regAt page i = .cmd x k) :
    s.landReg page i d m = s.modMb x fun y => { y with cmd := y.cmd.set k.val (masked m d s.mbx[x].cmd[k]) } := by
  simp only [State.landReg, h, State.regRead]

theorem State.landReg_ie {k : Fin 6} (h : s.regAt page i = .ie k) :
    s.landReg page i d m =
      { s with fn := { s.fn with ie := s.fn.ie.set k.val (masked m d s.fn.ie[k] &&& ieMask k.val) } } := by
  simp only [State.landReg, h, State.regRead]

theorem State.landReg_fen {b : BlockId} (h : s.regAt page i = .fen b) :
    s.landReg page i d m = s.modBlock b (FBlock.writeFen (b.kind.sources s.part) (masked m d (s.block b).fen)) := by
  simp only [State.landReg, h, State.regRead]

theorem State.landReg_cmpint {n : AxisId} (h : s.regAt page i = .cmpint n) :
    s.landReg page i d m = s.modAxis n fun a => { a with cmp := { a.cmp with int := masked m d s.axes[n].cmp.int } } := by
  simp only [State.landReg, h, State.regRead]

theorem State.landReg_kpstat (h : s.regAt page i = .kpstat) :
    s.landReg page i d m = { s with keep := { s.keep with klost := s.keep.klost && !(d &&& m).getLsbD 1 } } := by
  simp only [State.landReg, h]

end LandReg

end Sys2Proof.Machine
end

section
/-! PROOF. Writes over the host link and their landing (R55, R59, R60, R64, R66, R68, R71, R72, R82, R84, R97). -/
namespace Sys2Proof.Machine

/-- The first clauses of R59: a write of one word and its four outcomes. -/
theorem hostWritesArePosted : HostWritesArePosted := by
  intro s slot word hp hi l i bad cut
  have heard_is : LinkIs s (heard s slot.nth) l := heard_linkIs s slot.nth
  have received (hq : privileged s.part s.link.page = false) :
      exec (.hostWrite slot word false) s = .next ((s.beginWord slot.nth).receive i word) :=
    (exec_hostWrite hp false).trans (congrArg _ (State.hostWord_ordinary hi hq))
  refine ⟨fun j d m hq hl ha => ?_, fun j d m hq hl ha => ?_, fun hq hl => ?_, fun hq hw => ?_, fun hc => ?_, fun h0 => ?_,
    fun h0 => ?_⟩
  · exact ⟨_, received hq, State.receive_accepted rfl hl ha ▸ heard_is.setLink _⟩
  · refine ⟨_, received hq, State.receive_refused rfl (fun j' d' m' h => ?_) ▸ heard_is.setLink _⟩
    obtain ⟨rfl, rfl, rfl⟩ : j = j' ∧ d = d' ∧ m = m' := by simpa using hl.symm.trans h
    exact ha
  · exact ⟨_, received hq, State.receive_refused rfl (fun j d m h => nomatch hl.symm.trans h) ▸ heard_is.setLink _⟩
  · have begun : LinkIs s ((s.beginWord slot.nth).countBytes 0 4) l := (beginWord_linkIs s slot.nth).count 0 4
    refine ⟨_, (exec_hostWrite hp false).trans (congrArg _ (State.hostWord_privileged hi hq hw)), ?_⟩
    exact begun.windowError
  · refine ⟨_, (exec_hostWrite hp true).trans (congrArg _ (State.hostWord_cut hi hc)), ?_⟩
    exact (beginWord_linkIs s slot.nth).setLink _
  · exact ⟨_, exec_pageWrite hp 0 word, (heard_linkIs s 0).setLink _⟩
  · refine ⟨_, exec_pageWrite hp slot.nth word, ?_⟩
    rw [if_neg h0]
    exact heard_is.setLink _

theorem postedWritesLand : PostedWritesLand := by
  intro s page
  refine ⟨fun h => ?_, fun p hp => ?_⟩
  · refine congrArg Host.Outcome.next (State.lands_none (List.find?_eq_none.mpr fun q hq => ?_))
    simpa using h q hq
  · intro gone r v
    have lands (u : State) (h : { s with link := gone }.landReg page p.index p.data p.mask = u) :
        exec (.writeLands page) s = .next u := congrArg Host.Outcome.next ((State.lands_oldest hp).trans h)
    exact ⟨fun m k h => lands _ (State.landReg_cmd h), fun k h => lands _ (State.landReg_ie h),
      fun b h => lands _ (State.landReg_fen h), fun n h => lands _ (State.landReg_cmpint h),
      fun h => lands _ (State.landReg_kpstat h), fun h => lands _ (State.landReg_nothing h)⟩

/-- Settles O31: a received word by its four outcomes, a landing by the register that it reaches. -/
theorem linkWrites : Obligations.LinkWrites := ⟨hostWritesArePosted, postedWritesLand⟩

end Sys2Proof.Machine
end

section
/-! PROOF. The state right after reset (R60, R62, R65, R74, R102, R109 to R112, R122, R393, R465). -/
namespace Sys2Proof.Machine

/-- At reset every fault block is that of its sources (R465). -/
theorem reset_block (b : BlockId) : ∃ l, State.reset.block b = FBlock.init l :=
  ⟨_, Vector.getElem_ofFn _⟩

theorem reset_mailbox (m : MbId) : State.reset.mbx[m] = {} := Vector.getElem_replicate _

theorem reset_axis (n : AxisId) : State.reset.axes[n] = {} := Vector.getElem_replicate _

theorem reset_bank (b : BankId) : State.reset.banks[b] = {} := Vector.getElem_replicate _

theorem reset_proof (p : ProofId) : State.reset.proofs.get p = {} := by
  cases p with
  | node => rfl
  | bank b => exact Vector.getElem_replicate _
  | axisN n => exact Vector.getElem_replicate _
  | axisB n => exact Vector.getElem_replicate _

/-- Settles O57: every piece of the state is its default, and the stores are empty. -/
theorem resetState : Obligations.ResetState := by
  refine ⟨reset_canonical, rfl, rfl, rfl, rfl, rfl, rfl, rfl, fun m => ?_, fun b => ?_, fun p => ?_, fun n => ?_, fun b => ?_,
    fun key => ⟨rfl, rfl⟩⟩
  · rw [reset_mailbox]
    exact ⟨rfl, by decide, rfl⟩
  · obtain ⟨l, e⟩ := reset_block b
    rw [e]
    exact ⟨rfl, rfl, rfl⟩
  · rw [reset_proof]
  · rw [reset_axis]
    exact ⟨rfl, rfl⟩
  · rw [reset_bank]

end Sys2Proof.Machine
end

section
/-! SUPPORT. A word of a named register lands at once behind the earlier writes of its page (R55, R59, R97), and what it
does there (R74, R316 to R318, R465, R470, R480). -/
namespace Sys2Proof.Machine

theorem LinkIs.regAt {s u : State} {l : Link} (h : LinkIs s u l) (page : Byte) (i : Nat) :
    u.regAt page i = s.regAt page i := by
  rw [h]
  rfl

/-- A native word lies at its own index, with every bit (R55). -/
theorem Link.place_native {l : Link} {i : Nat} (hf : l.sframeF = false) (hi : i ≤ 0x7e) (word : Word) :
    l.place i word = some (i, word, 0xffffffff) := by
  rw [Link.place, hf, if_neg (by decide), if_pos hi]

@[simp] theorem masked_all (new old : Word) : masked 0xffffffff new old = new := by
  have all : (0xffffffff : Word) = BitVec.allOnes 32 := rfl
  rw [masked, all, BitVec.and_allOnes, BitVec.not_allOnes, BitVec.and_zero, BitVec.or_zero]

@[simp] theorem and_all (w : Word) : w &&& 0xffffffff = w := BitVec.and_allOnes

/-! ## Words that land at once -/

/-- A page without a posted write has nothing to land. -/
theorem State.landPage_quiet {s : State} {page : Byte} (h : ∀ p ∈ s.link.posted, p.page ≠ page) : s.landPage page = s := by
  have : (s.link.posted.filter fun p => p.page = page) = [] := List.filter_eq_nil_iff.mpr fun p hp => by simpa using h p hp
  rw [State.landPage, this]
  rfl

/-- A page with one posted write lands that. -/
theorem State.landPage_last {s : State} {page : Byte} {q : List Posted} {p : Posted} (hl : s.link.posted = q ++ [p])
    (hp : p.page = page) (hq : ∀ p ∈ q, p.page ≠ page) :
    s.landPage page =
      { s with link := { s.link with posted := q, landed := s.link.landed + 1 } }.landReg page p.index p.data p.mask := by
  have only : (s.link.posted.filter fun r => r.page = page) = [p] := by
    have : (q.filter fun r => r.page = page) = [] := List.filter_eq_nil_iff.mpr fun r hr => by simpa using hq r hr
    simp [hl, List.filter_append, this, hp]
  have oldest : (s.link.posted.find? fun r => r.page = page) = some p := by
    have : (q.find? fun r => r.page = page) = none := List.find?_eq_none.mpr fun r hr => by simpa using hq r hr
    simp [hl, List.find?_append, this, hp]
  have rest : s.link.posted.erase p = q := by
    rw [hl, List.erase_append_right _ fun h => hq p h hp, List.erase_cons_head, List.append_nil]
  rw [State.landPage, only]
  change s.lands page = _
  rw [State.lands_oldest oldest, rest]

/-- The state in which a word of a named register lands. -/
def landing (s : State) : State := { heard s 0 with link := landedAt s }

theorem landing_linkIs (s : State) : LinkIs s (landing s) (landedAt s) := (heard_linkIs s 0).setLink _

section Quiet
variable {s : State} {page : Byte} {i : Nat} {word : Word}

theorem pageQuiet.place (h : pageQuiet s page) (hi : i ≤ 0x7e) :
    (s.link.begin 0).place i word = some (i, word, 0xffffffff) := by
  obtain ⟨_, _, native, _⟩ := h
  exact Link.place_native native hi word

/-- A word that its register accepts lands at once. -/
theorem pageQuiet.lands (h : pageQuiet s page) (hi : i ≤ 0x7e) (ha : (heard s 0).accepts page i word 0xffffffff = true) :
    ((s.beginWord 0).receive i word).landPage page = (landing s).landReg page i word 0xffffffff := by
  have place := h.place (word := word) hi
  obtain ⟨_, rfl, _, quiet⟩ := h
  rw [State.receive_accepted rfl place ha]
  exact State.landPage_last (q := s.link.posted) (p := ⟨s.link.page, i, word, 0xffffffff⟩) rfl rfl quiet

/-- A word that its register does not accept changes the link alone. -/
theorem pageQuiet.refuses (h : pageQuiet s page) (hi : i ≤ 0x7e) (ha : (heard s 0).accepts page i word 0xffffffff = false) :
    ((s.beginWord 0).receive i word).landPage page = { heard s 0 with link := (s.link.begin 0).reject } := by
  have place := h.place (word := word) hi
  obtain ⟨_, rfl, _, quiet⟩ := h
  have refused : ∀ j d m, (s.link.begin 0).place i word = some (j, d, m) →
      (heard s 0).accepts (s.link.begin 0).page j d m = false := by
    intro j d m e
    obtain ⟨rfl, rfl, rfl⟩ : i = j ∧ word = d ∧ (0xffffffff : Word) = m := by simpa using place.symm.trans e
    exact ha
  rw [State.receive_refused rfl refused]
  exact State.landPage_quiet quiet

/-- A named register of a fixed place: its word is received and lands where its page is selected. -/
theorem pageQuiet.receiveAt (h : pageQuiet s page) {p : Byte → Bool} (hp : p page = true) {half k : BitVec 7} (hk : k.toNat = i) :
    s.onLink (State.receiveAt p ⟨if s.link.sframe then half else k, 0⟩ word) =
      ((s.beginWord 0).receive i word).landPage page := by
  subst hk
  obtain ⟨power, rfl, native, _⟩ := h
  have page : (s.beginWord 0).link.page = s.link.page := Link.begin_page _ _
  simp only [State.onLink_powered power, State.receiveAt, page, hp, native]
  rfl

end Quiet

section LandReg
variable {s : State} {page : Byte} {i : Nat} {d m : Word}

/-! What a landing does to the named registers (R82, R90). -/

theorem State.landReg_hlcfg (h : s.regAt page i = .hlcfg) (w : Word) : s.landReg page i w 0xffffffff =
    { s with link := { s.link with dlanes := w.extractLsb' 4 2, clanes := w.extractLsb' 0 2 } } := by
  simp only [State.landReg, h, masked_all]

theorem State.landReg_compat (h : s.regAt page i = .compat) (w : Word) :
    s.landReg page i w 0xffffffff = { s with link := { s.link with sframe := w.getLsbD 0 } } := by
  simp only [State.landReg, h, masked_all]

theorem State.landReg_batch (h : s.regAt page i = .batch) (w : Word) : s.landReg page i w 0xffffffff = s.batch w := by
  simp only [State.landReg, h, and_all]

theorem State.landReg_nerrctl (h : s.regAt page i = .nerrctl) (w : Word) : s.landReg page i w 0xffffffff =
    if w.getLsbD 0 then { s with fn := s.fn.release } else s := by
  simp only [State.landReg, h, and_all]

theorem State.landReg_fack {b : BlockId} (h : s.regAt page i = .fack b) (w : Word) : s.landReg page i w 0xffffffff =
    (s.modBlock b (FBlock.ack (w.extractLsb' 0 4))).ackProofs b (w.extractLsb' 0 4) := by
  simp only [State.landReg, h, and_all]

theorem State.landReg_frx {b : BlockId} (h : s.regAt page i = .frx b) (w : Word) : s.landReg page i w 0xffffffff =
    s.modBlock b (FBlock.writeFrx (b.kind.sources s.part) w) := by
  simp only [State.landReg, h, masked_all]

/-- A register without a check of its own accepts every word (R59). -/
theorem State.accepts_plain {r : Reg} (h : s.regAt page i = r) (hr : r ∈ [.compat, .batch, .nerrctl] ∨
    ∃ b, r = .fack b ∨ r = .frx b) : s.accepts page i d m = true := by
  rcases hr with hr | ⟨b, rfl | rfl⟩
  · simp only [List.mem_cons, List.not_mem_nil, or_false] at hr
    rcases hr with rfl | rfl | rfl <;> simp [State.accepts, h, Reg.writable]
  · simp [State.accepts, h, Reg.writable]
  · simp [State.accepts, h, Reg.writable]

/-- HLCFG accepts lane counts that are assigned (R74). -/
theorem State.accepts_hlcfg (h : s.regAt page i = .hlcfg) (w : Word) : s.accepts page i w 0xffffffff =
    decide (w.extractLsb' 4 2 ≠ 3 ∧ w.extractLsb' 0 2 ≠ 3) := by
  simp only [State.accepts, h, Reg.writable, masked_all, Bool.true_and]

/-- A word of such a register lands at once. -/
theorem pageQuiet.landsPlain {r : Reg} {word : Word} (q : pageQuiet s page) (hi : i ≤ 0x7e) (h : s.regAt page i = r)
    (hr : r ∈ [.compat, .batch, .nerrctl] ∨ ∃ b, r = .fack b ∨ r = .frx b) :
    ((s.beginWord 0).receive i word).landPage page = (landing s).landReg page i word 0xffffffff :=
  q.lands hi (State.accepts_plain (((heard_linkIs s 0).regAt page i).trans h) hr)

end LandReg

end Sys2Proof.Machine
end

section
/-! PROOF. HLCFG, COMPAT, BATCH, RELEASE, FACK and FRX (R74, R316 to R318, R465, R467, R470, R480). -/
namespace Sys2Proof.Machine

/-! ## BATCH (R316 to R318) -/

/-- What a write of BATCH does for one bank that it names. -/
def State.batchBank (b : Nat) (s : State) : State :=
  if s.linked (Fin.ofNat 12 b) then s.modBank (Fin.ofNat 12 b) fun x => { x with batches := x.batches ++ [s.opSeq] }
  else { s with bdrop := s.bdrop ||| (1#12 <<< b) }

theorem State.batch_eq (mask : Word) (s : State) : s.batch mask =
    s.each ((List.range 6).filter fun b => mask.getLsbD b && s.present (Fin.ofNat 12 b)) State.batchBank := rfl

/-- t is s after BATCH acted for other banks than c: the bank c is as it was. -/
def State.BatchSpares (c : BankId) (s t : State) : Prop :=
  t.banks[c] = s.banks[c] ∧ t.bdrop.getLsbD c.val = s.bdrop.getLsbD c.val ∧ t.opSeq = s.opSeq

theorem State.BatchSpares.linked {c : BankId} {s t : State} (h : s.BatchSpares c t) : t.linked c = s.linked c := by
  rw [State.linked, State.linked, h.1]

theorem one_shift_other {b c : Nat} (h : c ≠ b) : (1#12 <<< b).getLsbD c = false := by
  by_cases hc : c < b <;> simp [hc]
  omega

theorem State.batchBank_other {c : BankId} {b : Nat} (hb : b < 6) (h : c.val ≠ b) (s : State) :
    s.BatchSpares c (s.batchBank b) := by
  have ne : c ≠ Fin.ofNat 12 b := fun e => h (by rw [e, Fin.val_ofNat]; omega)
  unfold State.batchBank
  split
  · exact ⟨State.modBank_other s _ ne, rfl, rfl⟩
  · exact ⟨rfl, by rw [BitVec.getLsbD_or, one_shift_other h, Bool.or_false], rfl⟩

/-- BATCH acts for other banks than c. -/
theorem State.batch_spares {c : BankId} : ∀ {l : List Nat} (s : State), (∀ b ∈ l, b < 6) → c.val ∉ l →
    s.BatchSpares c (s.each l State.batchBank)
  | [], _, _, _ => ⟨rfl, rfl, rfl⟩
  | b :: l, s, h6, hc => by
    rw [List.mem_cons, not_or] at hc
    obtain ⟨bank, drop, seq⟩ := State.batchBank_other (h6 b List.mem_cons_self) hc.1 s
    obtain ⟨bank', drop', seq'⟩ :=
      State.batch_spares (s.batchBank b) (fun k hk => h6 k (List.mem_cons_of_mem b hk)) hc.2
    exact ⟨bank'.trans bank, drop'.trans drop, seq'.trans seq⟩

theorem State.each_append {α : Type} (l r : List α) (f : α → State → State) (s : State) :
    s.each (l ++ r) f = (s.each l f).each r f := List.foldl_append

/-- A bank that BATCH names: its flag is requested, or it counts as dropped. -/
theorem State.batch_names {c : BankId} {l : List Nat} (s : State) (h6 : ∀ b ∈ l, b < 6) (nodup : l.Nodup) (hc : c.val ∈ l) :
    (s.linked c = true → (s.each l State.batchBank).banks[c] =
      { s.banks[c] with batches := s.banks[c].batches ++ [s.opSeq] } ∧
      (s.each l State.batchBank).bdrop.getLsbD c.val = s.bdrop.getLsbD c.val) ∧
    (s.linked c = false → (s.each l State.batchBank).banks[c] = s.banks[c] ∧
      (s.each l State.batchBank).bdrop.getLsbD c.val = true) := by
  obtain ⟨before, after, rfl⟩ := List.append_of_mem hc
  have disjoint := List.nodup_append.mp nodup
  have notBefore : c.val ∉ before := fun h => disjoint.2.2 _ h _ List.mem_cons_self rfl
  have notAfter : c.val ∉ after := (List.nodup_cons.mp disjoint.2.1).1
  have first := State.batch_spares s (fun b hb => h6 b (List.mem_append_left _ hb)) notBefore
  have linked := first.linked
  obtain ⟨bank, drop, seq⟩ := first
  obtain ⟨bank', drop', -⟩ := State.batch_spares (c := c) ((s.each before State.batchBank).batchBank c.val)
    (fun b hb => h6 b (List.mem_append_right _ (List.mem_cons_of_mem _ hb))) notAfter
  have self : (Fin.ofNat 12 c.val : BankId) = c := Fin.ofNat_val_eq_self c
  rw [State.each_append, State.each_cons, bank', drop', State.batchBank, self, linked]
  constructor
  · intro h
    rw [h, if_pos rfl, State.modBank_same, bank, seq]
    exact ⟨rfl, drop⟩
  · intro h
    rw [h, if_neg (by decide)]
    refine ⟨bank, ?_⟩
    rw [BitVec.getLsbD_or]
    simp [c.isLt]

/-- BATCH leaves what is not a bank or the record of drops. -/
theorem State.batch_frame (mask : Word) (s : State) :
    s.batch mask = { s with banks := (s.batch mask).banks, bdrop := (s.batch mask).bdrop } := by
  refine State.each_keeps (fun t => t = { s with banks := t.banks, bdrop := t.bdrop }) State.batchBank (fun b t h => ?_) _ s rfl
  unfold State.batchBank
  split
  · rw [h]
    rfl
  · rw [h]

/-- The banks that a word of BATCH names. -/
theorem mem_batchNames {s : State} {mask : Word} {b : Nat} (hb : b < 6) (c : BankId) (hc : c.val = b) :
    b ∈ ((List.range 6).filter fun b => mask.getLsbD b && s.present (Fin.ofNat 12 b)) ↔
      mask.getLsbD b = true ∧ s.present c = true := by
  subst hc
  simp [hb]

theorem batchNames_nodup (p : Nat → Bool) : ((List.range 6).filter p).Nodup := List.nodup_range.filter p

theorem batchNames_lt {p : Nat → Bool} : ∀ b ∈ (List.range 6).filter p, b < 6 := fun _ h =>
  List.mem_range.mp (List.mem_filter.mp h).1

/-! ## The writes -/

theorem nodeRegisterWrites : NodeRegisterWrites := by
  intro s w
  have at_ (page : Byte) (i : Nat) : (landing s).regAt page i = s.regAt page i := (landing_linkIs s).regAt page i
  have heard_at (page : Byte) (i : Nat) : (heard s 0).regAt page i = s.regAt page i := (heard_linkIs s 0).regAt page i
  have hlcfg (hq : pageQuiet s 0) : exec (.hlcfgWrite w) s = .next (((s.beginWord 0).receive 4 w).landPage 0) :=
    congrArg Host.Outcome.next (hq.receiveAt rfl rfl)
  have release (hq : pageQuiet s 1) : exec (.nerrRelease w) s =
      .next (if w.getLsbD 0 then { landing s with fn := s.fn.release } else landing s) := by
    refine congrArg Host.Outcome.next ((hq.receiveAt (i := 14) rfl rfl).trans ?_)
    have fn : (landing s).fn = s.fn := by rw [landing_linkIs s]
    rw [hq.landsPlain (r := .nerrctl) (by decide) rfl (.inl (by decide)), State.landReg_nerrctl (at_ 1 14), fn]
  refine ⟨fun hq hd hc => ?_, fun hq hd => ?_, fun hq => ?_, fun hq => ?_, fun hq h0 h4 hn => ?_, fun hq h => ?_⟩
  · have acc : (heard s 0).accepts 0 4 w 0xffffffff = true := by
      rw [State.accepts_hlcfg (heard_at 0 4), decide_eq_true ⟨hd, hc⟩]
    refine ⟨_, hlcfg hq, ?_⟩
    rw [hq.lands (by decide) acc, State.landReg_hlcfg (at_ 0 4)]
    exact (landing_linkIs s).setLink _
  · have acc : (heard s 0).accepts 0 4 w 0xffffffff = false := by
      rw [State.accepts_hlcfg (heard_at 0 4)]
      exact decide_eq_false fun e => hd.elim e.1 e.2
    refine ⟨_, hlcfg hq, ?_⟩
    rw [hq.refuses (by decide) acc]
    exact ⟨rfl, rfl, rfl, rfl⟩
  · refine ⟨_, congrArg Host.Outcome.next (hq.receiveAt (i := 7) rfl rfl), ?_⟩
    rw [hq.landsPlain (r := .compat) (by decide) rfl (.inl (by decide)), State.landReg_compat (at_ 0 7)]
    exact (landing_linkIs s).setLink _
  · refine ⟨(landing s).batch w, (congrArg Host.Outcome.next (hq.receiveAt (i := 16) rfl rfl)).trans ?_, ?_, ?_, ?_, fun b hb => ?_⟩
    · exact congrArg Host.Outcome.next ((hq.landsPlain (r := .batch) (by decide) rfl (.inl (by decide))).trans
        (State.landReg_batch (at_ 1 16) w))
    · rw [State.batch_frame]
      exact (landing_linkIs s).link
    · rw [State.batch_frame, landing_linkIs s]
    · rw [State.batch_frame, landing_linkIs s]
    · have mem := mem_batchNames (s := landing s) (mask := w) hb b rfl
      have same : (landing s).present b = s.present b ∧ (landing s).linked b = s.linked b ∧
          (landing s).banks = s.banks ∧ (landing s).bdrop = s.bdrop ∧ (landing s).opSeq = s.opSeq := by
        rw [landing_linkIs s]
        exact ⟨rfl, rfl, rfl, rfl, rfl⟩
      obtain ⟨pres, link, banks, drop, seq⟩ := same
      rw [pres] at mem
      have names (hw : w.getLsbD b.val = true) (hp : s.present b = true) :=
        State.batch_names (landing s) batchNames_lt (batchNames_nodup _) (mem.mpr ⟨hw, hp⟩)
      rw [link, banks, drop, seq] at names
      refine ⟨fun hw hp hl => (names hw hp).1 hl, fun hw hp hl => (names hw hp).2 hl, fun hn => ?_⟩
      have out : (landing s).BatchSpares b ((landing s).batch w) := by
        refine State.batch_spares (landing s) batchNames_lt fun h => ?_
        obtain ⟨hw, hp⟩ := mem.mp h
        rcases hn with hn | hn
        · exact Bool.false_ne_true (hn.symm.trans hw)
        · exact Bool.false_ne_true (hn.symm.trans hp)
      rw [State.BatchSpares, banks, drop] at out
      exact ⟨out.1, out.2.1⟩
  · refine ⟨_, release hq, ?_⟩
    rw [h0, if_pos rfl]
    refine ⟨by rw [landing_linkIs s], ?_⟩
    change s.fn.release = _
    rw [FaultNode.release, if_neg (by simp [h4, hn])]
  · refine ⟨_, release hq, ?_⟩
    have kept : (landing s).fn = s.fn ∧ (landing s).blocks = s.blocks := by
      rw [landing_linkIs s]
      exact ⟨rfl, rfl⟩
    split
    · rename_i h0
      exact ⟨if_pos (h.resolve_left (by rw [h0]; decide)), kept.2⟩
    · exact kept

/-! ## Fault registers (R465, R467, R470) -/

/-- The block at a place in the order of blocks. -/
def blockAt (k : Nat) : BlockId :=
  if k < 8 then #v[.node, .hostLink, .mailboxEngine, .kiln, .entry, .memPort, .nvStore, .aux][k % 8]
  else if k < 16 then .fb (Fin.ofNat 8 (k - 8))
  else if k < 20 then .emu (Fin.ofNat 4 (k - 16))
  else if k < 32 then .bank (Fin.ofNat 12 (k - 20))
  else if k < 44 then .conv (Fin.ofNat 12 (k - 32))
  else if k < 92 then .axis (Fin.ofNat 48 (k - 44))
  else if k < 140 then .phase (Fin.ofNat 48 (k - 92)) false
  else if k < 188 then .phase (Fin.ofNat 48 (k - 140)) true
  else .stream (Fin.ofNat 48 (k - 188))

theorem blockAt_idx (i : BlockId) : blockAt i.idx.val = i := by
  have drop {n : Nat} [NeZero n] (k : Fin n) (d : Nat) : Fin.ofNat n (d + k.val - d) = k := by
    rw [Nat.add_sub_cancel_left, Fin.ofNat_val_eq_self]
  cases i with
  | fb n | emu n | bank n | conv n | axis n =>
    simp only [blockAt, BlockId.idx, drop]
    repeat rw [if_neg (by omega)]
    rw [if_pos (by omega)]
  | stream n =>
    simp only [blockAt, BlockId.idx, drop]
    repeat rw [if_neg (by omega)]
  | phase n phB =>
    cases phB <;> simp only [blockAt, BlockId.idx, drop]
    all_goals
      repeat rw [if_neg (by omega)]
      rw [if_pos (by omega)]
  | _ => rfl

/-- The place of a block in the order of blocks names it. -/
theorem BlockId.idx_injective {i j : BlockId} (h : j.idx = i.idx) : j = i := by
  rw [← blockAt_idx j, h, blockAt_idx]

theorem State.block_modBlock_other {s : State} {i j : BlockId} (f : FBlock → FBlock) (h : j ≠ i) :
    (s.modBlock i f).block j = s.block j := State.modBlock_other s f fun e => h (BlockId.idx_injective e)

/-- An acknowledgement touches beside its block the Proofs alone (R104, R470). -/
theorem State.ackProofs_frame (i : BlockId) (m : BitVec 4) (s : State) :
    s.ackProofs i m = { s with proofs := (s.ackProofs i m).proofs } :=
  State.each_keeps (fun t => t = { s with proofs := t.proofs }) _ (fun _ t h => by rw [h]; rfl) _ s rfl

section Slots
variable {s : State} {slot : Slot} {word : Word} {p : Reg → Bool}

/-- The register that a native slot of an ordinary page names. -/
theorem pageQuiet.slotIs (h : pageQuiet s s.link.page) (h0 : slot.nth = 0) (hi : slot.index.toNat ≤ 0x7e) :
    (s.beginWord 0).slotIs p slot = p (s.regAt s.link.page slot.index.toNat) := by
  have at_ := (beginWord_linkIs s 0).regAt s.link.page slot.index.toNat
  rw [State.slotIs, h0]
  change (match (s.link.begin 0).place slot.index.toNat 0 with
    | some (j, _, _) => p ((s.beginWord 0).regAt (s.link.begin 0).page j)
    | none => false) = _
  rw [h.place hi, Link.begin_page]
  exact congrArg p at_

/-- A named register of a slot: its word is received and lands where the slot names such a register. -/
theorem pageQuiet.receiveSlot (h : pageQuiet s s.link.page) (h0 : slot.nth = 0) (hi : slot.index.toNat ≤ 0x7e) :
    s.onLink (State.receiveSlot (fun q t => t.slotIs p q) slot word) =
      if p (s.regAt s.link.page slot.index.toNat)
      then ((s.beginWord 0).receive slot.index.toNat word).landPage s.link.page else s.beginWord 0 := by
  have power := h.1
  have page : (s.beginWord 0).link.page = s.link.page := Link.begin_page _ _
  simp only [State.onLink_powered power, State.receiveSlot, h0, h.slotIs h0 hi, page, Nat.add_zero]

end Slots

theorem FBlock.writeFrx_grp (l : List (Nat × Nat)) (v : Word) (f : FBlock) :
    (f.writeFrx l v).grp = v.extractLsb' 30 2 := by
  simp only [FBlock.writeFrx]
  split <;> rfl

theorem FBlock.writeFrx_status (l : List (Nat × Nat)) (v : Word) (f : FBlock) : (f.writeFrx l v).status = f.status := by
  simp only [FBlock.writeFrx]
  split <;> rfl

theorem faultRegisterWrites : FaultRegisterWrites := by
  intro s slot w b h0 hi hq
  have at_ (page : Byte) (i : Nat) : (landing s).regAt page i = s.regAt page i := (landing_linkIs s).regAt page i
  have kept : (landing s).blocks = s.blocks ∧ (landing s).fn = s.fn ∧ (landing s).banks = s.banks ∧
      ∀ j, (landing s).block j = s.block j := by
    rw [landing_linkIs s]
    exact ⟨rfl, rfl, rfl, fun _ => rfl⟩
  obtain ⟨blocks, fn, banks, block⟩ := kept
  refine ⟨fun h => ?_, fun h => ?_, fun h => ?_⟩
  · refine ⟨_, congrArg Host.Outcome.next ((hq.receiveSlot h0 hi).trans (if_pos (by rw [h]))), ?_⟩
    rw [hq.landsPlain hi h (.inr ⟨b, .inl rfl⟩), State.landReg_fack ((at_ _ _).trans h), State.ackProofs_frame]
    have self : ((landing s).modBlock b (FBlock.ack (w.extractLsb' 0 4))).block b = (s.block b).ack (w.extractLsb' 0 4) :=
      (State.modBlock_same _ b _).trans (congrArg _ (block b))
    have other (j : BlockId) (hj : j ≠ b) : ((landing s).modBlock b (FBlock.ack (w.extractLsb' 0 4))).block j = s.block j :=
      (State.block_modBlock_other _ hj).trans (block j)
    exact ⟨congrArg FBlock.pend self, congrArg FBlock.line self, (congrArg FBlock.status self).trans rfl,
      (congrArg FBlock.codes self).trans rfl,
      other, fn, banks⟩
  · refine ⟨_, congrArg Host.Outcome.next ((hq.receiveSlot h0 hi).trans (if_pos (by rw [h]))), ?_⟩
    have part : (landing s).part = s.part := by rw [landing_linkIs s]
    rw [hq.landsPlain hi h (.inr ⟨b, .inr rfl⟩), State.landReg_frx ((at_ _ _).trans h), part, State.modBlock_same, block]
    refine ⟨FBlock.writeFrx_grp _ _ _, fun h29 => ?_, fun h29 => ?_, FBlock.writeFrx_status _ _ _,
      fun j hj => (State.block_modBlock_other _ hj).trans (block j), fn⟩
    · rw [FBlock.writeFrx, if_pos h29]
    · rw [FBlock.writeFrx, h29, if_neg (by decide)]
  · refine ⟨_, congrArg Host.Outcome.next ((hq.receiveSlot h0 hi).trans (if_neg ?_)), rfl⟩
    split
    · rename_i c hc
      exact absurd hc (h c)
    · decide

/-- Settles O32: each word lands at once behind the earlier writes of its page, and does what its register says. -/
theorem namedRegisterWrites : Obligations.NamedRegisterWrites := ⟨nodeRegisterWrites, faultRegisterWrites⟩

end Sys2Proof.Machine
end

section
/-! SUPPORT. Reads over the host link: the status byte, the words sent, and the pages they come from (R56, R60, R64 to R71,
R76, R77). -/
namespace Sys2Proof.Machine

/-! ## What is sent -/

section LinkIs
variable {s u : State} {l : Link}

/-- A data word is sent in full. -/
theorem LinkIs.sendWord (h : LinkIs s u l) (w : Word) : LinkIs s (u.sendWord w) { l with wordsOut := l.wordsOut ++ [w] } := by
  obtain rfl := h.link
  exact (h.setLink _).count 0 _

/-- A word of a privileged page is sent in full. -/
theorem LinkIs.sendWindow (h : LinkIs s u l) (w : Word) :
    LinkIs s (u.sendWindow w) { l with wordsOut := l.wordsOut ++ [w] } := by
  obtain rfl := h.link
  exact (h.setLink _).count 0 _

end LinkIs

/-- The status byte shows `RDY` in bit 7 (R64). -/
theorem State.hlstatLow_rdy (s : State) (rdy : Bool) (wres : BitVec 2) : (s.hlstatLow rdy wres).getLsbD 7 = rdy := by
  simp only [State.hlstatLow, BitVec.getLsbD_append]
  cases rdy <;> rfl

/-- The link behind a status byte sent: a byte with RDY 1 clears WRES (R64). -/
def Link.shown (b : Byte) (rdy : Bool) (l : Link) : Link :=
  { l with statusOut := some b, wres := if rdy then 0 else l.wres }

theorem LinkIs.sendStatus {s u : State} {l : Link} (h : LinkIs s u l) {sent : Sent} (hs : sent ≠ .cutBefore) (i : Nat)
    (load : Bool) :
    LinkIs s (u.sendStatus i sent load) (l.shown (u.hlstatLow (u.rdy i load) l.wres) (u.rdy i load)) := by
  obtain rfl := h.link
  simp only [State.sendStatus, if_neg hs]
  cases u.rdy i load
  · exact (h.setLink _).count 0 1
  · exact (h.setLink _).count 0 1

theorem Link.shown_ready (s : State) (rdy : Bool) (w : BitVec 2) (l : Link) : (l.shown (s.hlstatLow rdy w) rdy).ready = rdy :=
  s.hlstatLow_rdy rdy w

/-! ## Reads of ordinary pages -/

/-- Beginning a transaction changes no word that a register reads. -/
theorem State.wordAt_begin (nth : Nat) (s : State) (page : Byte) (i : Nat) :
    (s.beginWord nth).wordAt page i = s.wordAt page i := by
  have reg : (s.beginWord nth).regAt page i = s.regAt page i := (beginWord_linkIs s nth).regAt page i
  unfold State.wordAt
  rw [reg]
  unfold State.beginWord Link.begin
  split
  · cases s.regAt page i <;> rfl
  · rfl

/-- The low word of a pair, whose read latches a shadow (R85). -/
def Reg.latches : Reg → Bool
  | .pos _ false => true
  | .cmpval _ false => true
  | _ => false

section Native
variable {s : State} {i : BitVec 7} {load : Bool}

/-- A read cut before its first word changes nothing. -/
theorem State.readNative_first_cut (s : State) (i : BitVec 7) (load : Bool) :
    s.readNative ⟨i, 0⟩ .cutBefore load = s := rfl

/-- The first word of a read that is not ready is 0 (R65). -/
theorem State.readNative_notReady (h : s.rdy i.toNat load = false) :
    s.readNative ⟨i, 0⟩ .full load = (s.sendStatus i.toNat .full load).sendWord 0 := by
  have ready : (s.sendStatus i.toNat .full load).link.ready = false := by
    rw [((LinkIs.refl s).sendStatus (by decide) i.toNat load).link, Link.shown_ready, h]
  simp [State.readNative, ready]

/-- The first word of a read that is ready is that of its register (R56). -/
theorem State.readNative_ready (h : s.rdy i.toNat load = true) (hi : i ≠ 0x7f)
    (hr : (s.regAt s.link.page i.toNat).latches = false) :
    s.readNative ⟨i, 0⟩ .full load = (s.sendStatus i.toNat .full load).sendWord
      ((s.sendStatus i.toNat .full load).wordAt s.link.page i.toNat) := by
  have shown := (LinkIs.refl s).sendStatus (sent := .full) (by decide) i.toNat load
  have ready : (s.sendStatus i.toNat .full load).link.ready = true := by rw [shown.link, Link.shown_ready, h]
  have page : (s.sendStatus i.toNat .full load).link.page = s.link.page := by rw [shown.link]; rfl
  have reg : (s.sendStatus i.toNat .full load).regAt s.link.page i.toNat = s.regAt s.link.page i.toNat := shown.regAt _ _
  have inside : ¬ 0x7e < i.toNat := by
    intro e
    exact hi (BitVec.eq_of_toNat_eq (by have := i.isLt; simp; omega))
  simp only [State.readNative, Nat.add_zero, if_true, ne_eq, not_true, if_false, ready, Bool.not_true, Bool.false_eq_true, inside,
    page, reg]
  split
  · rename_i e
    rw [e] at hr
    cases hr
  · rename_i e
    rw [e] at hr
    cases hr
  · rfl

end Native

section Page
variable {s : State} {i : BitVec 7} {sent : Sent} {load : Bool}

theorem State.readPage_native (hi : i ≠ 0x7f) (hf : s.link.sframe = false) (hq : privileged s.part s.link.page = false) :
    s.readPage ⟨i, 0⟩ sent load = (s.beginWord 0).readNative ⟨i, 0⟩ sent load := by
  have framing : (s.beginWord 0).link.sframeF = false := hf
  have ordinary : privileged (s.beginWord 0).part (s.beginWord 0).link.page = false := hq
  simp only [State.readPage, if_neg hi, ordinary, framing, Bool.false_eq_true, if_false]

theorem State.readPage_half {slot : Slot} (hi : slot.index ≠ 0x7f) (h0 : slot.nth = 0) (hf : s.link.sframe = true)
    (hq : privileged s.part s.link.page = false) : s.readPage slot sent load = (s.beginWord 0).readHalf slot sent := by
  have framing : (s.beginWord 0).link.sframeF = true := hf
  have ordinary : privileged (s.beginWord 0).part (s.beginWord 0).link.page = false := hq
  simp only [State.readPage, h0, if_neg hi, ordinary, framing, Bool.false_eq_true, if_false, if_true]

/-- HLSYNC is ready once no write is posted (R98). -/
theorem State.rdy_hlsync (h : s.link.page = 0) : s.rdy 6 false = decide (s.link.posted = []) := by
  have reg : s.regAt 0#8 6 = .hlsync := rfl
  simp [State.rdy, h, reg]

/-- A bank page is not ready while its mirror is loaded (R65). -/
theorem State.rdy_load (h : 0x40 ≤ s.link.page.toNat ∧ s.link.page.toNat ≤ 0x45) (k : Nat) : s.rdy k true = false := by
  simp [State.rdy, h]

end Page

section Later
variable {s : State} {load : Bool}

/-- A further word past the end reads 0 and is an overrun (R61, R66). -/
theorem State.readPage_past {slot : Slot} (hn : slot.nth ≠ 0) (hf : s.link.sframeF = false) (hr : s.link.ready = true)
    (h : slot.index = 0x7f ∨ (privileged s.part s.link.page = false ∧ 0x7e < slot.index.toNat + slot.nth)) :
    s.readPage slot .full load = { s.sendWord 0 with link := { (s.sendWord 0).link with ovrun := true } } := by
  rw [State.readPage, State.beginWord_later hn]
  by_cases hi : slot.index = 0x7f
  · simp [State.readPageReg, hi, hn, hr, hf]
  · obtain ⟨hq, past⟩ := h.resolve_left hi
    simp only [if_neg hi, hq, hf, Bool.false_eq_true, if_false, State.readNative, if_neg hn, ne_eq, not_true, hr, Bool.not_true,
      if_pos past]

end Later

section PageReg
variable {s : State}

/-- PAGE on an ordinary page, natively: its status byte, then the page (R60, R64). -/
theorem State.readPageReg_status (hs : s.link.setUp = true) (hq : privileged s.part s.link.page = false)
    (hf : s.link.sframeF = false) : s.readPageReg 0 .full false =
      (s.sendStatus 0x7f .full false).sendWord ((s.sendStatus 0x7f .full false).link.page.setWidth 32) := by
  have rdy : s.rdy 0x7f false = true := by
    have reg : s.regAt 0#8 127 ≠ .hlsync := by
      have : s.regAt 0#8 127 = .nothing := rfl
      rw [this]
      decide
    simp [State.rdy, hs, reg]
  have shown := (LinkIs.refl s).sendStatus (sent := .full) (by decide) 0x7f false
  have ready : (s.sendStatus 0x7f .full false).link.ready = true := by rw [shown.link, Link.shown_ready, rdy]
  have framing : (s.sendStatus 0x7f .full false).link.sframeF = false := by
    rw [shown.link]
    exact hf
  simp [State.readPageReg, hq, hf, ready, framing]

/-- PAGE under S-framing or on a privileged page is sent without a status byte (R60, R61). -/
theorem State.readPageReg_bare (hs : s.link.setUp = true) (hn : s.link.statusOut = none)
    (h : ¬ (privileged s.part s.link.page = false ∧ s.link.sframeF = false)) :
    s.readPageReg 0 .full false = s.sendWord (s.link.page.setWidth 32) := by
  have ready : s.link.ready = true := by rw [Link.ready, hn]
  simp only [State.readPageReg, true_and, if_neg h, ne_eq, not_true, if_false, ready, State.notSetUp, hs, Bool.not_true,
    Bool.and_false, Bool.or_self, Bool.false_eq_true, if_true]

end PageReg

/-- The link behind a shadow latched for a low word (R85). -/
def Link.shadowed (i : Nat) (hi : Word) (l : Link) : Link := { l with shadow := cellSet 0 (pairKey l.page i) hi l.shadow }

/-- The low half of a register: its low bits are sent, its high half is latched (R77). -/
theorem State.readHalf_low {s u : State} {l : Link} (h : LinkIs s u l) {slot : Slot} (hn : slot.nth = 0)
    (hs : l.setUp = true) (hi : slot.index.toNat < 0x7e) (h2 : slot.index.toNat % 2 = 0) :
    ∃ k : Link, LinkIs s (u.readHalf slot .full) k ∧ k.statusOut = l.statusOut ∧
      k.wordsOut = l.wordsOut ++ [u.wordAt l.page (slot.index.toNat / 2) &&& 0xffff] ∧
      k.latch = (u.wordAt l.page (slot.index.toNat / 2)).extractLsb' 16 16 := by
  obtain rfl := h.link
  have half : halfIndex slot.index.toNat = some (slot.index.toNat / 2, false) := by
    rw [halfIndex, if_pos hi, h2]
    rfl
  have inside : ¬ 0x7e < slot.index.toNat := by omega
  have halved := (h.sendWord (u.wordAt u.link.page (slot.index.toNat / 2) &&& 0xffff)).modLink fun k =>
    { k with latch := (u.wordAt u.link.page (slot.index.toNat / 2)).extractLsb' 16 16 }
  simp only [State.readHalf, ne_eq, not_true, if_false, State.notSetUp, hs, Bool.not_true, Bool.and_false, Bool.false_eq_true,
    hn, Nat.add_zero, inside, half]
  split
  · rename_i n _
    have shadowed := halved.modLink (Link.shadowed (slot.index.toNat / 2) ((word64 u.axes[n].eng.ipos).extractLsb' 32 32))
    exact ⟨_, shadowed, rfl, rfl, rfl⟩
  · rename_i n _
    have shadowed := halved.modLink (Link.shadowed (slot.index.toNat / 2) ((word64 u.axes[n].cmp.val).extractLsb' 32 32))
    exact ⟨_, shadowed, rfl, rfl, rfl⟩
  · exact ⟨_, halved, rfl, rfl, rfl⟩

section First
variable {s : State} {i : BitVec 7} {load : Bool}

/-- A read that is not ready answers 0 and keeps WRES (R64, R65). -/
theorem readNative_answers_zero (hi : i ≠ 0x7f) (hf : s.link.sframe = false) (hq : privileged s.part s.link.page = false)
    (h : (s.beginWord 0).rdy i.toNat load = false) :
    ∃ b : Byte, b.getLsbD 7 = false ∧ LinkIs s (s.readPage ⟨i, 0⟩ .full load)
      { s.link.begin 0 with statusOut := some b, wordsOut := [0] } := by
  rw [State.readPage_native hi hf hq, State.readNative_notReady h]
  have sentIs := ((beginWord_linkIs s 0).sendStatus (sent := .full) (by decide) i.toNat load).sendWord 0
  rw [h] at sentIs
  exact ⟨_, State.hlstatLow_rdy _ _ _, sentIs⟩

/-- A read that is ready answers its register's word and clears WRES (R56, R64). -/
theorem readNative_answers (hi : i ≠ 0x7f) (hf : s.link.sframe = false) (hq : privileged s.part s.link.page = false)
    (h : (s.beginWord 0).rdy i.toNat load = true) (hr : (s.regAt s.link.page i.toNat).latches = false) :
    ∃ (b : Byte) (u : State), b.getLsbD 7 = true ∧ LinkIs s u { s.link.begin 0 with statusOut := some b, wres := 0 } ∧
      LinkIs s (s.readPage ⟨i, 0⟩ .full load)
        { s.link.begin 0 with statusOut := some b, wres := 0, wordsOut := [u.wordAt s.link.page i.toNat] } := by
  have shown := (beginWord_linkIs s 0).sendStatus (sent := .full) (by decide) i.toNat load
  rw [State.readPage_native hi hf hq, State.readNative_ready h hi hr]
  have sentIs := shown.sendWord (((s.beginWord 0).sendStatus i.toNat .full load).wordAt s.link.page i.toNat)
  rw [h] at shown sentIs
  exact ⟨_, _, State.hlstatLow_rdy _ _ _, shown, sentIs⟩

end First

end Sys2Proof.Machine
end

section
/-! SUPPORT. The privileged pages: queues, the trace window and the windows of streams (R67 to R71, R205 to R207, R388,
R551). -/
namespace Sys2Proof.Machine

/-! ## A change of the machine under a change of the link -/

section LinkIs
variable {s u : State} {l : Link}

theorem LinkIs.modAxis (h : LinkIs s u l) (n : AxisId) (f : Axis → Axis) : LinkIs (s.modAxis n f) (u.modAxis n f) l := by
  rw [h]
  rfl

theorem LinkIs.modQueue (h : LinkIs s u l) (q : QueueRef) (f : Queue → Queue) :
    LinkIs (s.modQueue q f) (u.modQueue q f) l := by
  rw [h]
  cases q <;> rfl

end LinkIs

/-! ## Queues (R69, R70, R388) -/

section Queue
variable {s : State} {q : QueueRef} {pop collide : Bool}

/-- A fetch cut short does nothing (R71). -/
theorem State.fetchQueue_cut (hq : queueOf s.part s.link.page = some q) {sent : Sent} (hs : sent ≠ .full) :
    s.fetchQueue pop sent collide = s.beginWord 0 := by
  simp only [State.fetchQueue, hq, if_pos hs]

/-- A queue that is disabled, or whose bank is absent, answers 0 (R69). -/
theorem State.fetchQueue_off (hq : queueOf s.part s.link.page = some q) (hs : s.queueServes q = false) :
    s.fetchQueue pop .full collide = (s.beginWord 0).sendWindow 0 := by
  have serves : (s.beginWord 0).queueServes q = false := by
    rw [← hs]
    cases q <;> rfl
  simp [State.fetchQueue, hq, serves]

/-- A fetch that meets the loading of a packet answers the busy word (R70). -/
theorem State.fetchQueue_busy (hq : queueOf s.part s.link.page = some q) (hs : s.queueServes q = true)
    (hc : (collide && q.collides) = true) : s.fetchQueue pop .full collide = (s.beginWord 0).sendWindow busyWord := by
  have serves : (s.beginWord 0).queueServes q = true := by
    rw [← hs]
    cases q <;> rfl
  simp only [State.fetchQueue, hq, serves, hc, ne_eq, not_true, if_false, Bool.not_true, Bool.false_eq_true, if_true]

/-- A fetch answers the oldest entry, which POP removes (R388). -/
theorem State.fetchQueue_front (hq : queueOf s.part s.link.page = some q) (hs : s.queueServes q = true)
    (hc : (collide && q.collides) = false) : s.fetchQueue pop .full collide =
      if pop then ((s.beginWord 0).sendWindow (s.queue q).front).modQueue q Queue.pop
      else (s.beginWord 0).sendWindow (s.queue q).front := by
  have same : (s.beginWord 0).queueServes q = s.queueServes q ∧ (s.beginWord 0).queue q = s.queue q := by
    cases q <;> exact ⟨rfl, rfl⟩
  simp only [State.fetchQueue, hq, same.1, same.2, hs, hc, ne_eq, not_true, if_false, Bool.not_true, Bool.false_eq_true]

end Queue

/-! ## The trace window (R551, R552) -/

section Trace
variable {s : State} {collide : Bool}

theorem State.fetchTrace_off (h : s.traceOn = false) : s.fetchTrace .full collide = (s.beginWord 0).sendWindow 0 := by
  have on : (s.beginWord 0).traceOn = false := h
  simp [State.fetchTrace, on]

theorem State.fetchTrace_busy (h : s.traceOn = true) : s.fetchTrace .full true = (s.beginWord 0).sendWindow busyWord := by
  have on : (s.beginWord 0).traceOn = true := h
  simp [State.fetchTrace, on]

theorem State.fetchTrace_pops (h : s.traceOn = true) {u : State} (hu : u = (s.beginWord 0).sendWindow (s.perf.fifo.headD 0)) :
    s.fetchTrace .full false = { u with perf := { u.perf with fifo := u.perf.fifo.tail } } := by
  have on : (s.beginWord 0).traceOn = true := h
  subst hu
  simp only [State.fetchTrace, on, ne_eq, not_true, if_false, Bool.not_true, Bool.false_eq_true]
  rfl

end Trace

/-! ## Windows of streams (R69, R205 to R207) -/

/-- What a raise says of a state, it says of one with the counts that the raise leaves. -/
theorem State.RaisedAt.countsOf {s u : State} {i : BlockId} {bit : Nat} (h : s.RaisedAt i bit u) :
    ({ s with perf := u.perf } : State).RaisedAt i bit u := by
  obtain ⟨set, frame, axes, banks, kept⟩ := h
  have perf : u.perf = { s.perf with count := u.perf.count } := congrArg State.perf frame
  refine ⟨set, ?_, axes, banks, kept⟩
  rw [← perf] at frame
  exact frame

/-- The host link has the sources WINCLOSED and LINKRST (R484). -/
theorem classOf_hostLink (p : Part) {bit : Nat} (h : bit = 0 ∨ bit = 1) : (classOf p .hostLink bit).isSome = true := by
  rcases h with rfl | rfl <;> rfl

/-- The first access of a transaction to a closed window raises WINCLOSED (R69). -/
theorem LinkIs.closedWindow {s u : State} {l : Link} (h : LinkIs s u l) (hl : l.winRaised = false) :
    State.RaisedAt { s with link := { l with winerr := true, winRaised := true }, perf := u.closedWindow.perf } .hostLink 0
      u.closedWindow := by
  have told := (h.windowError).modLink fun k => { k with winRaised := true }
  have closed : u.closedWindow =
      State.raise .hostLink 0 { u.windowError with link := { u.windowError.link with winRaised := true } } := by
    rw [State.closedWindow, h.link, hl]
    rfl
  have raised := State.raise_raisedAt .hostLink 0 { u.windowError with link := { u.windowError.link with winRaised := true } }
    (by decide) (classOf_hostLink _ (.inl rfl))
  rw [← closed] at raised
  have counted := raised.countsOf
  rw [told] at counted
  exact counted

end Sys2Proof.Machine
end

section
/-! PROOF. Reads over the host link, the privileged pages, and the link without power (R56, R60, R61, R64 to R71, R76, R77, R81,
R98, R206, R386, R388, R551, R552). -/
namespace Sys2Proof.Machine

/-- HLSYNC_READ reads page 0x00 at index 0x06 (R98). -/
theorem exec_hlsyncRead {s : State} (hp : s.powered = true) (h0 : s.link.page = 0) (hf : s.link.sframe = false) (sent : Sent) :
    exec (.hlsyncRead sent) s = .next (s.readPage ⟨6, 0⟩ sent false) := by
  change Host.Outcome.next (s.onLink _) = _
  rw [State.onLink_powered hp, if_pos h0, hf]
  rfl

theorem exec_wideLowRead {s : State} (hp : s.powered = true) (slot : Slot) (sent : Sent) (load : Bool) :
    exec (.wideLowRead slot sent load) s = .next (s.readPage slot sent load) :=
  congrArg Host.Outcome.next (State.onLink_powered hp _)

theorem linkReads : LinkReads := by
  intro s hp
  refine ⟨fun h0 hf hq hn => ?_, fun h0 hf hq hn => ?_, fun h0 hf hq => ?_, fun h0 => ?_, fun slot hf hr hn h => ?_,
    fun hs => ?_, fun i hi hf hq hb => ?_, fun slot hf hs hq hn h7 h2 => ?_⟩
  · have ready : (s.beginWord 0).rdy (6 : BitVec 7).toNat false = true := by
      exact (State.rdy_hlsync (s := s.beginWord 0) h0).trans (decide_eq_true hn)
    obtain ⟨b, v, rdy, before, after⟩ := readNative_answers (by decide) hf (h0 ▸ hq) ready (by rw [h0]; rfl)
    have word : v.wordAt s.link.page (6 : BitVec 7).toNat = 0#16 ++ s.link.landed := by
      rw [h0]
      change (0#16 ++ v.link.landed : Word) = _
      rw [before.link]
      rfl
    refine ⟨_, exec_hlsyncRead hp h0 hf .full, ?_⟩
    rw [after, word]
    exact ⟨rfl, congrArg some rdy, rfl, rfl⟩
  · have ready : (s.beginWord 0).rdy (6 : BitVec 7).toNat false = false := by
      exact (State.rdy_hlsync (s := s.beginWord 0) h0).trans (decide_eq_false hn)
    obtain ⟨b, rdy, after⟩ := readNative_answers_zero (by decide) hf (h0 ▸ hq) ready
    refine ⟨_, exec_hlsyncRead hp h0 hf .full, ?_⟩
    rw [after]
    exact ⟨rfl, congrArg some rdy, rfl, rfl⟩
  · refine ⟨_, exec_hlsyncRead hp h0 hf .cutBefore, ?_⟩
    rw [State.readPage_native (by decide) hf (h0 ▸ hq), State.readNative_first_cut]
    exact ⟨rfl, rfl, rfl⟩
  · change Host.Outcome.next (s.onLink _) = _
    rw [State.onLink_powered hp, if_neg h0]
  · refine ⟨_, congrArg Host.Outcome.next (State.onLink_powered hp _), ?_⟩
    rw [State.readPage_past hn hf hr h]
    exact ((LinkIs.refl s).sendWord 0).modLink fun k => { k with ovrun := true }
  · refine ⟨_, exec_wideLowRead hp ⟨0x7f, 0⟩ .full false, ?_⟩
    have page : s.link.page.setWidth 32 = (0#24 ++ s.link.page : Word) := by
      have small := s.link.page.isLt
      refine BitVec.eq_of_toNat_eq ?_
      simp only [BitVec.toNat_setWidth, BitVec.toNat_append, BitVec.toNat_ofNat, Nat.zero_mod, Nat.zero_shiftLeft, Nat.zero_or]
      omega
    have begun := beginWord_linkIs s 0
    have read : s.readPage ⟨0x7f, 0⟩ .full false = (s.beginWord 0).readPageReg 0 .full false := by
      rw [State.readPage]
      exact if_pos rfl
    by_cases h : privileged s.part s.link.page = false ∧ s.link.sframe = false
    · have shown := begun.sendStatus (sent := .full) (by decide) 0x7f false
      have sentIs := shown.sendWord (((s.beginWord 0).sendStatus 0x7f .full false).link.page.setWidth 32)
      rw [read, State.readPageReg_status (s := s.beginWord 0) hs h.1 h.2, sentIs, shown.link, ← page]
      exact ⟨rfl, rfl, rfl, fun _ => h, fun _ => rfl⟩
    · rw [read, State.readPageReg_bare (s := s.beginWord 0) hs rfl h, begun.sendWord, ← page]
      exact ⟨rfl, rfl, rfl, nofun, fun e => absurd e h⟩
  · obtain ⟨b, rdy, after⟩ := readNative_answers_zero hi hf hq (State.rdy_load (s := s.beginWord 0) hb _)
    refine ⟨_, exec_wideLowRead hp ⟨i, 0⟩ .full true, ?_⟩
    rw [after]
    exact ⟨rfl, congrArg some rdy, rfl⟩
  · refine ⟨_, congrArg Host.Outcome.next (State.onLink_powered hp _), ?_⟩
    have hi : slot.index ≠ 0x7f := fun e => by rw [e] at h7; exact absurd h7 (by decide)
    obtain ⟨k, e, status, words, latch⟩ := State.readHalf_low (beginWord_linkIs s 0) hn hs h7 h2
    rw [State.wordAt_begin] at words latch
    rw [State.readPage_half hi hn hf hq, e]
    exact ⟨words, latch, status, rfl⟩

section Commands
variable {s : State} (hp : s.powered = true)
include hp

theorem exec_queuePop (sent : Sent) (collide : Bool) : exec (.queuePop sent collide) s = .next (s.fetchQueue true sent collide) :=
  congrArg Host.Outcome.next (State.onLink_powered hp _)

theorem exec_queuePeek (collide : Bool) : exec (.queuePeek collide) s = .next (s.fetchQueue false .full collide) :=
  congrArg Host.Outcome.next (State.onLink_powered hp _)

theorem exec_tracePop (h : s.link.page = 0xf7) (sent : Sent) (collide : Bool) :
    exec (.tracePop sent collide) s = .next (s.fetchTrace sent collide) :=
  congrArg Host.Outcome.next ((State.onLink_powered hp _).trans (if_pos h))

theorem exec_windowStatusRead {w : WinId} (h : windowOf s.link.page = some w) (nth : Nat) (sent : Sent) :
    exec (.windowStatusRead nth sent) s = .next (s.windowStatus w nth sent) := by
  refine congrArg Host.Outcome.next ((State.onLink_powered hp _).trans ?_)
  rw [h]

end Commands

theorem queueWindows : QueueWindows := by
  intro s b sent hp q l said
  have begun : LinkIs s (s.beginWord 0) l := beginWord_linkIs s 0
  have sends (w : Word) : LinkIs s ((s.beginWord 0).sendWindow w) (said w) := begun.sendWindow w
  have serves (hb : s.present b = true) (he : q.en = true) : s.queueServes (.bank b) = true := by
    rw [State.queueServes, State.queue, he, hb, Bool.and_self]
  refine ⟨fun i hq h0 hi h7 => ?_, fun hq hb he => ?_, fun hq hb he => ?_, fun hq he => ?_, fun hq hb he => ?_, fun h6 => ?_,
    fun hq hs => ?_, fun h7 ht => ?_, fun h7 ht collide => ?_, fun h7 ht => ?_, fun n w hw hn => ?_, fun w hw hs => ?_,
    fun w hw hn => ?_⟩
  · have unassigned : privileged s.part s.link.page ∧ i.toNat ≠ 0x7f ∧ 0 < i.toNat :=
      ⟨hq, fun e => h7 (BitVec.eq_of_toNat_eq e), hi⟩
    refine ⟨((s.beginWord 0).sendWindow 0).windowError, congrArg Host.Outcome.next ((State.onLink_powered hp _).trans ?_),
      (sends 0).windowError⟩
    rw [h0] at unassigned ⊢
    exact if_pos unassigned
  · refine ⟨_, exec_queuePop hp .full false, ?_⟩
    rw [State.fetchQueue_front hq (serves hb he) rfl, if_pos rfl]
    exact (sends _).modQueue (.bank b) Queue.pop
  · refine ⟨_, exec_queuePeek hp false, ?_⟩
    rw [State.fetchQueue_front hq (serves hb he) rfl]
    exact sends _
  · refine ⟨_, exec_queuePop hp .full false, ?_⟩
    have off : s.queueServes (.bank b) = false := by rw [State.queueServes, State.queue, he, Bool.false_and]
    rw [State.fetchQueue_off hq off]
    exact sends 0
  · refine ⟨_, exec_queuePop hp .full true, ?_⟩
    rw [State.fetchQueue_busy hq (serves hb he) rfl]
    exact sends busyWord
  · have aux : queueOf s.part s.link.page = some .aux := by
      rw [h6]
      rfl
    refine ⟨_, exec_queuePop hp .full true, ?_⟩
    have en : s.queueServes .aux = s.auxq.en := Bool.and_true _
    cases he : s.auxq.en
    · rw [State.fetchQueue_off aux (en.trans he)]
      exact sends 0
    · rw [State.fetchQueue_front aux (en.trans he) rfl]
      exact (sends _).modQueue .aux Queue.pop
  · exact ⟨_, exec_queuePop hp sent false, State.fetchQueue_cut hq hs ▸ begun⟩
  · refine ⟨_, exec_tracePop hp h7 .full false, ?_⟩
    rw [State.fetchTrace_pops ht rfl, sends (s.perf.fifo.headD 0)]
  · exact ⟨_, exec_tracePop hp h7 .full collide, State.fetchTrace_off ht ▸ sends 0⟩
  · exact ⟨_, exec_tracePop hp h7 .full true, State.fetchTrace_busy ht ▸ sends busyWord⟩
  · refine ⟨_, exec_windowStatusRead hp hw 0 .full, ?_⟩
    have bound : (s.beginWord 0).windowStream w = some n := hn
    simp only [State.windowStatus, ne_eq, not_true, if_false, bound]
    exact (sends _).modAxis n _
  · refine ⟨_, exec_windowStatusRead hp hw 0 sent, ?_⟩
    rw [State.windowStatus, if_pos hs]
    exact begun
  · refine ⟨_, exec_windowStatusRead hp hw 0 .full, ?_⟩
    have closed : (s.beginWord 0).windowStream w = none := hn
    simp only [State.windowStatus, ne_eq, not_true, if_false, closed]
    exact (sends 0).closedWindow rfl

theorem linkWithoutPower : LinkWithoutPower := by
  intro s slot word cut load nth i m hp
  have off (f : State → State) : (Host.Outcome.next (s.onLink f) : Host.Outcome State Fault Refusal) = .next s :=
    congrArg _ (State.onLink_unpowered hp f)
  repeat refine List.forall_mem_cons.mpr ⟨off _, ?_⟩
  exact nofun

/-- Settles O36: the reads of ordinary pages, those of privileged pages, and the link without power. -/
theorem linkReadsAndWindows : Obligations.LinkReadsAndWindows := ⟨linkReads, queueWindows, linkWithoutPower⟩

end Sys2Proof.Machine
end

section
/-! PROOF. Words written to a stream window, and the reset of the link (R69, R75, R202, R203, R205, R207). -/
namespace Sys2Proof.Machine

/-- Two changes of one axis, one after the other. -/
theorem State.modAxis_modAxis (n : AxisId) (f g : Axis → Axis) (s : State) :
    (s.modAxis n f).modAxis n g = s.modAxis n fun a => g (f a) := by
  simp [State.modAxis]

/-- Gives an axis another stream. -/
def State.setStr (n : AxisId) (q : Stream) (s : State) : State := s.modAxis n fun a => { a with str := q }

theorem State.setStr_str (n : AxisId) (q : Stream) (s : State) : (s.setStr n q).axes[n].str = q :=
  congrArg Axis.str (State.modAxis_same s n _)

theorem State.setStr_setStr (n : AxisId) (q r : Stream) (s : State) : (s.setStr n q).setStr n r = s.setStr n r :=
  State.modAxis_modAxis n _ _ s

theorem LinkIs.setStr {s u : State} {l : Link} (h : LinkIs s u l) (n : AxisId) (q : Stream) :
    LinkIs (s.setStr n q) (u.setStr n q) l := h.modAxis n _

/-! ## Points (R203, R207) -/

section Put
variable {quota : Nat} {p : Point} {t : Stream}

/-- A point for which there is room, and which lasts, is stored. -/
theorem Stream.putPoint_stores (hq : t.fifo.length < quota) (hd : p.dur ≠ 0) :
    t.putPoint quota p = ({ t with fifo := t.fifo ++ [p] }, .stored) := by
  rw [Stream.putPoint, if_neg (Nat.not_le.mpr hq), if_neg hd]

theorem Stream.putPoint_bad (hq : t.fifo.length < quota) (hd : p.dur = 0) : t.putPoint quota p = (t, .badPoint) := by
  rw [Stream.putPoint, if_neg (Nat.not_le.mpr hq), if_pos hd]

theorem Stream.putPoint_refuses (hq : quota ≤ t.fifo.length) : t.putPoint quota p = ({ t with refd := true }, .refused) := by
  rw [Stream.putPoint, if_pos hq]

end Put

/-- What a point does by the answer of its stream: it is stored, or a fault is raised (R203, R207). -/
def PointResult.raises (n : AxisId) (s : State) : PointResult → State
  | .stored => s
  | .badPoint => s.raise (.stream n) 5
  | .refused => s.raise (.stream n) 2

section Word
variable {s : State} {n : AxisId} {word w0 : Word}

/-- The first word of a point is held (R205). -/
theorem State.streamWord_first (h : s.axes[n].str.half = none) :
    s.streamWord n word = s.setStr n { s.axes[n].str with half := some word } := by
  rw [State.streamWord, h]
  rfl

/-- The second word completes the point that the first began (R205). -/
theorem State.streamWord_second (h : s.axes[n].str.half = some w0) {q : Stream} {r : PointResult}
    (hp : { s.axes[n].str with half := none }.putPoint (s.followCfg n).squota (pointOf w0 word) = (q, r)) :
    s.streamWord n word = r.raises n (s.setStr n q) := by
  have str := State.setStr_str n { s.axes[n].str with half := none } s
  have put : ((s.setStr n { s.axes[n].str with half := none }).axes[n].str.putPoint (s.followCfg n).squota (pointOf w0 word)) =
      (q, r) := by rw [str, hp]
  have word_ : s.streamWord n word =
      (s.setStr n { s.axes[n].str with half := none }).streamPoint n (pointOf w0 word) := by
    rw [State.streamWord, h]
    rfl
  have cfg : (s.setStr n { s.axes[n].str with half := none }).followCfg n = s.followCfg n := rfl
  rw [word_, State.streamPoint, cfg, put]
  have twice := State.setStr_setStr n { s.axes[n].str with half := none } q s
  cases r
  · exact twice
  · exact congrArg (State.raise (.stream n) 5) twice
  · exact congrArg (State.raise (.stream n) 2) twice

end Word

/-- A raise leaves the streams (R469). -/
theorem State.raise_str (i : BlockId) (bit : Nat) (s : State) (n : AxisId) : (s.raise i bit).axes[n].str = s.axes[n].str := by
  rw [(s.raise_frame i bit).2.1 n]

/-- A raise of a source of a stream sets its bit (R468). -/
theorem State.raise_stream {n : AxisId} {bit : Nat} (h : bit = 2 ∨ bit = 5) (s : State) :
    (s.raise (.stream n) bit).statusBit (.stream n) bit = true := by
  rcases h with rfl | rfl
  · exact State.raise_status _ _ _ _ s (.inr ⟨rfl, rfl, by decide, rfl⟩)
  · exact State.raise_status _ _ _ _ s (.inr ⟨rfl, rfl, by decide, rfl⟩)

/-- Settles O37: a word by the stream's answer to the point, a closed window and the reset by what a raise leaves. -/
theorem streamWindowAndLinkReset : Obligations.StreamWindowAndLinkReset := by
  intro s n w word w0 nth hp q here p with_ l
  let u := (s.beginWord nth).countBytes 0 4
  have begun : LinkIs s u l := (beginWord_linkIs s nth).count 0 4
  have same : u.axes = s.axes ∧ u.followCfg n = s.followCfg n ∧ ∀ w, u.windowStream w = s.windowStream w := by
    rw [begun]
    exact ⟨rfl, rfl, fun _ => rfl⟩
  obtain ⟨axes, cfg, bound⟩ := same
  have write (h : windowOf s.link.page = some w) :
      exec (.streamWindowWrite nth word) s = .next (s.windowWord w nth word) := by
    refine congrArg Host.Outcome.next ((State.onLink_powered hp _).trans ?_)
    rw [h]
  have lands (h : here) : exec (.streamWindowWrite nth word) s = .next (u.streamWord n word) := by
    obtain ⟨hw, hn⟩ := h
    rw [write hw, State.windowWord]
    simp only [bound w |>.trans hn, u]
  have second (h : here) (hh : q.half = some w0) {t : Stream} {r : PointResult}
      (ht : { q with half := none }.putPoint (s.followCfg n).squota p = (t, r)) :
      exec (.streamWindowWrite nth word) s = .next (r.raises n (u.setStr n t)) := by
    have half : u.axes[n].str.half = some w0 := by rw [axes, hh]
    have put : { u.axes[n].str with half := none }.putPoint (u.followCfg n).squota (pointOf w0 word) = (t, r) := by
      rw [axes, cfg, ht]
    exact (lands h).trans (congrArg _ (State.streamWord_second half put))
  refine ⟨fun h hh => ?_, fun h hh hq hd => ?_, fun h hh hq => ?_, fun h hh hq hd => ?_, fun hw hn => ?_, ?_⟩
  · refine ⟨_, lands h, ?_⟩
    rw [State.streamWord_first (by rw [axes]; exact hh), axes]
    exact begun.setStr n _
  · exact ⟨_, second h hh (Stream.putPoint_stores hq hd), begun.setStr n _⟩
  · refine ⟨_, second h hh (Stream.putPoint_refuses hq), (State.raise_str _ _ _ n).trans (State.setStr_str n _ u),
      State.raise_stream (.inl rfl) _⟩
  · refine ⟨_, second h hh (Stream.putPoint_bad hq hd), (State.raise_str _ _ _ n).trans (State.setStr_str n _ u),
      State.raise_stream (.inr rfl) _⟩
  · have first : LinkIs s ((s.beginWord 0).countBytes 0 4) (s.link.begin 0) := (beginWord_linkIs s 0).count 0 4
    have closed : ((s.beginWord 0).countBytes 0 4).windowStream w = none := by
      rw [first]
      exact hn
    refine ⟨((s.beginWord 0).countBytes 0 4).closedWindow,
      congrArg Host.Outcome.next ((State.onLink_powered hp _).trans ?_), first.closedWindow rfl⟩
    simp only [hw, State.windowWord, closed]
  · exact ⟨_, congrArg Host.Outcome.next (State.onLink_powered hp _),
      State.raise_raisedAt .hostLink 1 _ (by decide) (classOf_hostLink _ (.inr rfl))⟩

end Sys2Proof.Machine
end

section
/-! SUPPORT. What restored values leave when they come into force at the firmware start: unless a fault halts the node by
class 4, the boot state, the mailboxes and the keep domain; and always the states of the axes (R387, R389, R407, R414, R477,
R515, R519). -/
namespace Sys2Proof.Machine

/-- t is s after restored values came into force. -/
structure State.Starting (s t : State) : Prop where
  halt : t.boot = 3 ∨ (t.boot = s.boot ∧ t.mbx = s.mbx ∧ t.keep = s.keep)
  st : ∀ n : AxisId, t.axes[n].eng.st = s.axes[n].eng.st

namespace State.Starting
variable {s t u : State}

theorem refl (s : State) : s.Starting s := ⟨.inr ⟨rfl, rfl, rfl⟩, fun _ => rfl⟩

theorem trans (h : s.Starting t) (k : t.Starting u) : s.Starting u where
  halt := by
    rcases k.halt with k | ⟨kb, km, kk⟩
    · exact .inl k
    · rcases h.halt with h | ⟨hb, hm, hk⟩
      · exact .inl (kb.trans h)
      · exact .inr ⟨kb.trans hb, km.trans hm, kk.trans hk⟩
  st := fun n => (k.st n).trans (h.st n)

/-- A change beside the boot state, the mailboxes, the keep domain and the axes. -/
theorem beside (h : s.Starting t) (hb : u.boot = t.boot := by rfl) (hm : u.mbx = t.mbx := by rfl)
    (hk : u.keep = t.keep := by rfl) (ha : u.axes = t.axes := by rfl) : s.Starting u :=
  h.trans ⟨.inr ⟨hb, hm, hk⟩, fun n => by rw [ha]⟩

/-- A change of one axis that leaves its state. -/
theorem modAxis (h : s.Starting t) (n : AxisId) (f : Axis → Axis) (hf : ∀ a, (f a).eng.st = a.eng.st := by exact fun _ => rfl) :
    s.Starting (t.modAxis n f) := by
  refine h.trans ⟨.inr ⟨rfl, rfl, rfl⟩, fun k => ?_⟩
  by_cases e : k = n
  · rw [e, State.modAxis_same, hf]
  · rw [State.modAxis_other t f e]

theorem ite {c : Prop} [Decidable c] (ht : s.Starting t) (hu : s.Starting u) : s.Starting (if c then t else u) := by
  split
  · exact ht
  · exact hu

theorem each {α : Type} {f : α → State → State} (h : s.Starting t) (hf : ∀ a (v : State), v.Starting (f a v)) (l : List α) :
    s.Starting (t.each l f) :=
  State.each_keeps (fun v => s.Starting v) f (fun a v hv => hv.trans (hf a v)) l t h

/-- A raise halts the node by class 4, or leaves what the start is to keep (R469, R477). -/
theorem raise1 (h : s.Starting t) (i : BlockId) (bit : Nat) (test : Bool) : s.Starting (t.raise1 i bit test).1 := by
  refine h.trans ⟨?_, fun n => by rw [(t.raise1_frame i bit test).2.1 n]⟩
  unfold State.raise1
  split
  · exact .inr ⟨rfl, rfl, rfl⟩
  · simp only
    split
    · exact .inr ⟨rfl, rfl, rfl⟩
    · simp only
      split
      · exact .inl (State.class4Halt_boot _)
      · exact .inr ⟨rfl, rfl, rfl⟩

theorem requestSoft (b : BankId) (s : State) : s.Starting (s.requestSoft b) := by
  unfold State.requestSoft
  have asked : s.Starting (s.modBank b fun k => { k with softReq := true }) := (refl s).beside
  exact .ite (asked.raise1 _ _ _) (refl s)

theorem raise (h : s.Starting t) (i : BlockId) (bit : Nat) : s.Starting (t.raise i bit) := by
  unfold State.raise State.raiseT
  simp only
  split
  · exact (h.raise1 i bit false).each requestSoft _
  · exact h.raise1 i bit false

/-! ## Feedback, emulation and the sequencer -/

theorem emuJudge (n : EmuId) (s : State) : s.Starting (s.emuJudge n) := by
  unfold State.emuJudge State.raiseIf
  extract_lets b beyond
  have judged : s.Starting (s.modEmu n fun e => { e with lagUp := (e.lagUp || beyond) && decide (b ≠ 0) }) := (refl s).beside
  exact .ite (judged.raise _ _) judged

theorem emuFollow (n : FbId) (f g : FbChan) (s : State) : s.Starting (s.emuFollow n f g) := by
  unfold State.emuFollow
  exact (refl s).each (fun _ v => (refl v).beside) _

theorem fbEvent (n : FbId) (f : FbChan → FbChan × List Nat) (s : State) : s.Starting (s.fbEvent n f) := by
  have changed : s.Starting (s.modFb n fun _ => (f s.fbs[n]).1) := (refl s).beside
  exact ((changed.trans (emuFollow n s.fbs[n] _ _)).each emuJudge _).each (fun bit v => (refl v).raise _ bit) _

theorem auxLand (s : State) : s.Starting s.auxLand := by
  unfold State.auxLand
  extract_lets s1
  have applied : s.Starting s1 := (refl s).beside
  exact .ite (refl s) (.ite applied.beside applied)

theorem applyRestored (s : State) : s.Starting s.applyRestored := by
  unfold State.applyRestored
  extract_lets s1 seq s2 s3
  have h1 : s.Starting s1 := (refl s).each (fun _ v => (refl v).beside) _
  have h2 : s.Starting s2 := (h1.beside (u := { s1 with
    auxq := s1.auxq.enable (decide (s.pA 0 0x6900 0 = 1)), auxs := { s1.auxs with cfgNew := true } })).trans (auxLand _)
  have h3 : s.Starting s3 := h2.each (fun n v => .ite (refl v) (fbEvent n _ v).beside) _
  exact h3.each (fun _ v => (refl v).beside) _

/-! ## Records (R513, R515) -/

theorem putRecord (load : Bool) (key : Nat) (v : Word) (s : State) : s.Starting (s.putRecord load key v) := by
  unfold State.putRecord
  extract_lets i u w proof
  have loaded (p : ProofId) (w : Nat) : s.Starting (proof p w) := .ite (refl s).beside (refl s)
  refine .ite (loaded _ _) (.ite (loaded _ _) (.ite (loaded _ _) (.ite (refl s).beside (.ite (refl s).beside (.ite ?_ (refl s).beside)))))
  exact (refl s).modAxis _ _

theorem restoreSet (place : Nat → Option Nat) (layout : Half) (l : List Record) (s : State) :
    s.Starting (s.restoreSet place layout l).1 := by
  unfold State.restoreSet
  extract_lets own same conv
  split
  · exact (refl s).raise _ _
  · refine (refl s).each (fun r v => ?_) l
    split
    · exact putRecord _ _ _ v
    · exact refl v

theorem restoreConfig (s : State) : s.Starting s.restoreConfig := by
  unfold State.restoreConfig
  split
  · exact (restoreSet _ _ _ s).beside
  · exact .ite (refl s) ((refl s).raise _ _)

end State.Starting

end Sys2Proof.Machine
end

section
/-! PROOF. The Starter, the firmware start, and the writing of the store (R65, R151, R477, R514 to R518, R522, R523, R529). -/
namespace Sys2Proof.Machine

/-! ## The choice of an image (R522, R523) -/

/-- Choosing an image sets which runs next, its version and its rollback level, and nothing else. -/
theorem Nv.pickFrom_frame (a b e : ImageCheck) : ∀ (l : List FwSrc) (v : Nv),
    v.pickFrom a b e l = { v with chosen := (v.pickFrom a b e l).chosen, version := (v.pickFrom a b e l).version,
                                  rollback := (v.pickFrom a b e l).rollback }
  | [], _ => rfl
  | src :: l, v => by
    have rest := Nv.pickFrom_frame a b e l v
    cases src <;> simp only [Nv.pickFrom]
    case none => exact rest
    all_goals
      split
      · rfl
      · exact rest

theorem Nv.endTrial_slots (v : Nv) : v.endTrial.slots = v.slots := by
  unfold Nv.endTrial
  split <;> rfl

theorem Nv.endTrial_trial (v : Nv) : v.endTrial.trial = none := by
  unfold Nv.endTrial
  split
  · rfl
  · assumption

theorem Nv.endTrial_of {v : Nv} {t : Bool} (h : v.trial = some t) : v.endTrial.active = !t := by
  rw [Nv.endTrial, h]

theorem Nv.endTrial_none {v : Nv} (h : v.trial = none) : v.endTrial = v := by
  rw [Nv.endTrial, h]

/-- Slot A runs where it is first in the boot order and verifies. -/
theorem Nv.pickFrom_slotA {v : Nv} {a b e : ImageCheck} {l : List FwSrc} (hv : v.slots[0].st = .valid)
    (hc : v.slots[0].check v.minroll (decide (a.cause ≠ 6)) = 0) :
    v.pickFrom a b e (.slotA :: l) = v.choose .slotA v.slots[0].version v.slots[0].rollback := by
  have ok : (decide ((v.slot false).st = .valid) && decide ((v.slot false).check v.minroll (decide (a.cause ≠ 6)) = 0)) = true := by
    rw [Bool.and_eq_true, decide_eq_true_eq, decide_eq_true_eq]
    exact ⟨hv, hc⟩
  rw [Nv.pickFrom]
  exact if_pos ok

/-- The boot order without a trial and without an external source begins with the active slot (R522). -/
theorem Nv.order_active {v : Nv} (ht : v.trial = none) (hb : v.bootsrc = 0) :
    v.order = [slotSrc v.active, slotSrc (!v.active)] := by
  simp [Nv.order, ht, hb]

/-! ## STARTER_BOOT -/

/-- The state in which the Starter chooses an image: the fabric is set up, a lost keep RAM is cleared (R65, R518). -/
def State.starterSetUp (s : State) : State :=
  { s with link := { s.link with setUp := true }, keep := if s.keep.klost then { s.keep with ram := [] } else s.keep }

section Starter
variable {s : State} (hp : s.powered = true) (hr : s.refOk = true) (hb : s.boot = 0) (hs : s.link.setUp = false)
include hp hr hb hs

theorem exec_starterBoot (h4 : s.fn.class4 = false) (a b e : ImageCheck) : exec (.starterBoot a b e) s =
    .next { s.starterSetUp with nv := s.nv.endTrial.pickFrom a b e s.nv.order } := by
  refine congrArg Host.Outcome.next ?_
  rw [State.starterBoot, if_pos ⟨hp, hr, hb, hs⟩]
  exact if_neg fun h => Bool.false_ne_true (h4.symm.trans h)

theorem exec_starterBoot_halts (h4 : s.fn.class4 = true) (a b e : ImageCheck) :
    exec (.starterBoot a b e) s = .next { s.starterSetUp with boot := 3, haltC4 := true } := by
  refine congrArg Host.Outcome.next ?_
  rw [State.starterBoot, if_pos ⟨hp, hr, hb, hs⟩]
  exact if_pos h4

end Starter

/-! ## FIRMWARE_START -/

/-- A change of each axis of a list by itself: what one of them is in the end. -/
theorem State.each_modAxis (f : AxisId → Axis → Axis) (n : AxisId) : ∀ (l : List AxisId) (s : State), l.Nodup →
    (s.each l fun k t => t.modAxis k (f k)).axes[n] = if n ∈ l then f n s.axes[n] else s.axes[n]
  | [], s, _ => rfl
  | k :: l, s, h => by
    obtain ⟨hk, hl⟩ := List.nodup_cons.mp h
    rw [State.each_cons, State.each_modAxis f n l _ hl]
    by_cases e : n = k
    · subst e
      rw [if_neg hk, if_pos List.mem_cons_self, State.modAxis_same]
    · rw [State.modAxis_other s _ e]
      simp only [List.mem_cons, e, false_or]

/-- Restored positions change the positions of the axes alone (R519). -/
theorem State.restorePositions_frame (s : State) : s.restorePositions = { s with axes := s.restorePositions.axes } :=
  State.each_keeps (fun t => t = { s with axes := t.axes }) _ (fun _ _ h => by rw [h]; rfl) allAxes s rfl

/-- The position and the known flag that an axis has at the firmware start (R519). -/
def State.startPos (s : State) (n : AxisId) : Int × Bool := if n.val < 24 then s.bootPos n.val else (0, true)

theorem State.restorePositions_axis (s : State) (n : AxisId) : s.restorePositions.axes[n] =
    { s.axes[n] with eng := { s.axes[n].eng with
        pos := (s.startPos n).1 * oneStep, prevPos := (s.startPos n).1 * oneStep, posunk := (s.startPos n).2 } } := by
  have all := State.each_modAxis (fun n a => { a with eng := { a.eng with
    pos := (s.startPos n).1 * oneStep, prevPos := (s.startPos n).1 * oneStep, posunk := (s.startPos n).2 } }) n allAxes s
    (List.nodup_finRange 48)
  rw [if_pos (show n ∈ allAxes from List.mem_finRange n)] at all
  exact all

theorem State.sendSet_frame (s : State) : s.sendSet = { s with pair := s.sendSet.pair } := by
  unfold State.sendSet
  split <;> rfl

/-- Blank sets restore nothing (R515). -/
theorem State.restoreConfig_blank {s : State} (h0 : s.nv.sets[0].blank = true) (h1 : s.nv.sets[1].blank = true) :
    s.restoreConfig = s := by
  have none_ : s.nv.best = none := by simp [Nv.best, ConfigSet.valid, h0, h1]
  rw [State.restoreConfig, none_]
  exact if_pos ⟨h0, h1⟩

/-- The node with its firmware running from a source: BOOT 1, the links started (R80, R523). -/
def State.runFirmware (src : FwSrc) (t : State) : State :=
  { t with boot := 1, links := true,
           nv := { t.nv with src := src, chosen := none, restored := true, loading := none, trialT := 0 } }

theorem exec_firmwareStart {s t : State} {src : FwSrc} (hp : s.powered = true) (hr : s.refOk = true) (hb : s.boot = 0)
    (hs : s.link.setUp = true) (hc : s.nv.chosen = some src) (ht : s.restoreConfig.applyRestored = t) (h0 : t.boot = 0) :
    exec .firmwareStart s = .next (t.restorePositions.runFirmware src).sendSet.settle := by
  refine congrArg Host.Outcome.next ?_
  have quiet : ¬ t.restorePositions.boot ≠ 0 := by
    rw [t.restorePositions_frame]
    exact not_not_intro h0
  rw [State.firmwareStart, hc]
  simp only [hp, hr, hb, hs, and_self, if_true, ht]
  exact if_neg quiet

/-- No command waits while every mailbox is idle. -/
theorem State.noReset_of_idle {s : State} (h : ∀ m : MbId, s.mbx[m].phase = .idle) : s.noReset = true :=
  List.all_eq_true.mpr fun k _ => decide_eq_true (by rw [h k]; exact ⟨nofun, nofun⟩)

/-- The node as the firmware start leaves it, before it serves its mailboxes. -/
theorem State.startedFrame (src : FwSrc) (t : State) : (t.restorePositions.runFirmware src).sendSet =
    { t with axes := t.restorePositions.axes, boot := 1, links := true,
             nv := { t.nv with src := src, chosen := none, restored := true, loading := none, trialT := 0 },
             pair := (t.restorePositions.runFirmware src).sendSet.pair } := by
  rw [State.sendSet_frame, State.runFirmware, State.restorePositions_frame]

/-- What the firmware start leaves where no restored value halts the node (R477, R519, R523). -/
theorem firmwareStart_leaves {s t : State} {src : FwSrc} (hi : ∀ m : MbId, s.mbx[m].phase = .idle) (hm : t.mbx = s.mbx)
    {u : State} (hu : u = (t.restorePositions.runFirmware src).sendSet.settle) :
    u.boot = 1 ∧ u.links = true ∧ u.nv.src = src ∧ u.nv.chosen = none ∧ u.nv.restored = true ∧ u.mbx = s.mbx ∧ u.fn = t.fn ∧
      u.axes = t.restorePositions.axes := by
  have frame := State.startedFrame src t
  generalize (t.restorePositions.runFirmware src).sendSet = w at frame hu
  have mbx : w.mbx = s.mbx := by rw [frame, hm]
  have idle (m : MbId) : w.mbx[m].phase = .idle := by rw [mbx, hi]
  obtain ⟨beside, mail⟩ := State.settle_beside (State.noReset_of_idle idle)
  rw [← hu] at beside mail
  have same : u.mbx = s.mbx := by
    rw [← mbx]
    exact Vector.ext fun k hk => mail ⟨k, hk⟩ (by rw [idle]; decide)
  rw [frame] at beside
  refine ⟨?_, ?_, ?_, ?_, ?_, same, ?_, ?_⟩ <;> rw [beside]

/-! ### Default parameters enter no feedback channel (R401, R515) -/

theorem default_fbMode {s : State} (h : s.nodeP = {}) (n : FbId) : (s.fbCfg n).mode = 0 := by
  have mode : (s.fbCfg n).mode = fieldN (paramGet s.nodeP.applied (keyOf n.val 0x5000 0)).toNat 0 3 := rfl
  have off : ∀ n : FbId, fieldN (paramGet [] (keyOf n.val 0x5000 0)).toNat 0 3 = 0 := by decide
  rw [mode, h]
  exact off n

theorem auxLand_frame (s : State) : s.auxLand = { s with nodeP := s.auxLand.nodeP, auxs := s.auxLand.auxs } := by
  unfold State.auxLand
  split
  · rfl
  · extract_lets s1
    split <;> rfl

theorem auxLand_default {s : State} (h : s.nodeP = {}) : s.auxLand.nodeP = {} := by
  have apply : s.auxApply.nodeP = {} := by
    rw [State.auxApply, h]
    rfl
  unfold State.auxLand
  split
  · exact h
  · extract_lets s1
    split <;> exact apply

/-- The fault registers are not reached by default values. -/
theorem applyRestored_fn {s : State} (h : s.nodeP = {}) : s.applyRestored.fn = s.fn := by
  unfold State.applyRestored
  extract_lets s1 seq s2 s3
  have h1 : s1 = { s with banks := s1.banks } :=
    State.each_keeps (fun t => t = { s with banks := t.banks }) _ (fun _ _ e => by rw [e]; rfl) allBanks s rfl
  have h2 : s2.nodeP = {} := auxLand_default (by change s1.nodeP = {}; rw [h1, h])
  have h3 : s3 = s2 := State.each_keeps (fun t => t = s2) _
    (fun n t e => (if_pos (by rw [e]; exact default_fbMode h2 n)).trans e) _ s2 rfl
  have fn2 : s2.fn = s.fn := by
    unfold s2
    rw [auxLand_frame]
    change s1.fn = s.fn
    rw [h1]
  rw [State.each_proj s3 (fun t => t.fn) State.emuLoad (fun _ _ => rfl), h3, fn2]

theorem bootSequence : BootSequence := by
  intro s hp hr hb
  refine ⟨fun a b e hs h4 => ?_, fun a b e hs h4 => ?_, fun a b e hs h4 ht h0 hact hv hc => ?_, ?_, ?_, ?_⟩
  · refine ⟨_, exec_starterBoot hp hr hb hs h4 a b e, ?_⟩
    rw [Nv.pickFrom_frame]
    exact ⟨rfl, hb, fun h => congrArg Keep.ram (if_pos h), s.nv.endTrial_slots, s.nv.endTrial_trial, fun _ => Nv.endTrial_of,
      rfl, rfl, rfl, rfl⟩
  · exact ⟨_, exec_starterBoot_halts hp hr hb hs h4 a b e, rfl, rfl, rfl⟩
  · refine ⟨_, exec_starterBoot hp hr hb hs h4 a b e, ?_⟩
    rw [Nv.order_active ht h0, Nv.endTrial_none ht, hact]
    have first := Nv.pickFrom_slotA (b := b) (e := e) (l := [slotSrc (!false)]) hv hc
    exact ⟨congrArg Nv.chosen first, congrArg Nv.version first⟩
  · intro src hc hs h0 h1 hi hboot
    have start := State.Starting.applyRestored s
    obtain ⟨-, mbx, keep⟩ := start.halt.resolve_left (by rw [hboot]; decide)
    have exec_ := exec_firmwareStart hp hr hb hs hc (congrArg State.applyRestored (State.restoreConfig_blank h0 h1)) hboot
    obtain ⟨boot, links, source, chosen, restored, same, fn, axes⟩ := firmwareStart_leaves hi mbx rfl
    refine ⟨_, exec_, boot, links, source, chosen, restored, same, fun hd => fn.trans (applyRestored_fn hd), fun n => ?_⟩
    rw [axes, State.restorePositions_axis]
    refine ⟨start.st n, fun hk hn => ?_⟩
    change (s.applyRestored.startPos n).1 * oneStep = _
    rw [State.startPos, if_pos hn, State.bootPos, keep, if_pos hk]
    rfl
  · intro src hc hs hi hboot
    have start := (State.Starting.restoreConfig s).trans (State.Starting.applyRestored _)
    obtain ⟨-, mbx, -⟩ := start.halt.resolve_left (by rw [hboot]; decide)
    obtain ⟨boot, links, source, -, restored, -⟩ := firmwareStart_leaves hi mbx rfl
    exact ⟨_, exec_firmwareStart hp hr hb hs hc rfl hboot, boot, links, source, restored⟩
  · intro hc
    refine congrArg Host.Outcome.next ?_
    rw [State.firmwareStart, hc]

/-! ## Writing the store (R151, R514, R516, R517) -/

/-- The set that a write places is the one that its number names (R514). -/
theorem Nv.putSet_now (v : Nv) (no : Bool) (c : ConfigSet) :
    (if no then (v.putSet no c).sets[1] else (v.putSet no c).sets[0]) = c := by
  cases no <;> simp [Nv.putSet]

theorem Nv.putSet_frame (v : Nv) (no : Bool) (c : ConfigSet) : v.putSet no c = { v with sets := (v.putSet no c).sets } := rfl

section Store
variable {s : State} {r : StoreRun} {rest : List StoreRun}

/-- The set that a STORE writes: the next number (R514). -/
def Nv.nextSet (v : Nv) (r : StoreRun) : ConfigSet := { r.set with seq := (if v.setOk then v.setNow.seq else 0) + 1 }

/-- The store after a STORE that verified: its set is in force (R514). -/
def Nv.stored (v : Nv) (r : StoreRun) (rest : List StoreRun) : Nv :=
  { v.putSet v.spareSet (v.nextSet r) with stores := rest, nstores := v.nstores + 1, setOk := true, setNo := v.spareSet }

/-- The store after a STORE that did not verify: the set in force stays (R514). -/
def Nv.failed (v : Nv) (r : StoreRun) (rest : List StoreRun) : Nv :=
  { v.putSet v.spareSet { v.nextSet r with ok := false } with stores := rest }

theorem Nv.stored_setNow (v : Nv) (r : StoreRun) (rest : List StoreRun) : (v.stored r rest).setNow = v.nextSet r :=
  v.putSet_now v.spareSet (v.nextSet r)

/-- A STORE that verified ends DONE: what is left of it, with the response words `ws`. -/
theorem storeComplete_verified (hs : s.nv.stores = r :: rest) (hr : s.noReset = true) :
    ∃ u w ws, exec (.storeComplete true) s = .next u ∧ w = { s with nv := s.nv.stored r rest } ∧
      u = { w with mbx := u.mbx, perf := u.perf, pair := u.pair } ∧
      ∀ k : MbId, (w.done r.mb ws).mbx[k].phase ≠ .rung → u.mbx[k] = (w.done r.mb ws).mbx[k] := by
  let w : State := { s with nv := s.nv.stored r rest }
  let t := w.done r.mb (w.storeWords r.set)
  have told : t = { w with mbx := t.mbx, perf := t.perf } := w.done_told r.mb _
  have sent := t.sendSet_frame
  have quiet : t.sendSet.noReset = true := by
    rw [State.noReset_congr (u := t.sendSet) (s := t) (by rw [sent])]
    exact State.complete_noReset (s := s) (u := w) rfl hr r.mb 2 _
  obtain ⟨frame, mail⟩ := State.settle_beside quiet
  have run : s.storeComplete true = t.sendSet.settle := by
    rw [State.storeComplete, hs]
    rfl
  refine ⟨t.sendSet.settle, w, w.storeWords r.set, congrArg Host.Outcome.next run, rfl, ?_, fun k hk => ?_⟩
  · rw [frame, sent, told]
  · have same : t.sendSet.mbx = t.mbx := by rw [sent]
    rw [← same]
    exact mail k (by rw [same]; exact hk)

end Store

/-- A completed command shows its state (R109). -/
theorem Mailbox.finish_state (st : BitVec 2) (ws : List Word) (x : Mailbox) : (x.finish st ws).state = st := by
  have head : (x.finish st ws).rsp[0] = rspHead st (min 15 ws.length) x.copy[0] := Vector.getElem_ofFn _
  rw [Mailbox.state, head, rspHead]
  refine BitVec.eq_of_getLsbD_eq fun i hi => ?_
  have place : 30 + i - 24 - 6 = i := by omega
  rw [BitVec.getLsbD_extractLsb', decide_eq_true hi, Bool.true_and, BitVec.getLsbD_append, if_neg (by omega),
    BitVec.getLsbD_append, if_neg (by omega), place]

/-- A command that does not end now keeps its end until the processor runs again (R120). -/
theorem State.complete_held {s : State} {m : MbId} (h : s.endsNow m = false) (hm : s.mbx[m].phase ≠ .idle) (st : BitVec 2)
    (ws : List Word) : s.complete m st ws = s.modMb m fun x => { x with phase := .ended st ws } := by
  rcases State.complete_cases m st ws s with ⟨e, -⟩ | ⟨-, -, e⟩ | ⟨-, e, -⟩
  · rw [h] at e
    cases e
  · exact e
  · exact absurd e hm

/-- NVFAIL where class 2 of the store is not pending: no class above 2 is raised, so beside the fault registers nothing
changes (R469, R473). -/
theorem State.raise_nvfail {s : State} (h : (s.block .nvStore).pend.getLsbD 2 = false) :
    s.raise .nvStore 0 = { s with blocks := (s.raise .nvStore 0).blocks, fn := (s.raise .nvStore 0).fn } := by
  have cls : classOf s.part .nvStore 0 = some 2 := rfl
  unfold State.raise State.raiseT State.raise1
  rw [cls]
  by_cases hf : (s.block .nvStore).fen.getLsbD 0 = false
  · simp only [if_pos hf]
    rfl
  · have class_ : ((s.block .nvStore).raised 2 0).2.1 = 2 := by
      simp only [FBlock.raised, h, Bool.and_false]
      rfl
    simp only [if_neg hf, class_]
    rfl

/-- A STORE that did not verify ends with NVFAIL, and the set in force stays (R514). -/
theorem storeComplete_failed {s : State} {r : StoreRun} {rest : List StoreRun} (hs : s.nv.stores = r :: rest)
    (hr : s.noReset = true) (he : s.endsNow r.mb = true) (hp : (s.block .nvStore).pend.getLsbD 2 = false) :
    ∃ u ws, exec (.storeComplete false) s = .next u ∧ u.nv = s.nv.failed r rest ∧ u.statusBit .nvStore 0 = true ∧
      u.mbx[r.mb] = s.mbx[r.mb].finish 3 ws ∧ u.nodeP = s.nodeP := by
  let w : State := { s with nv := s.nv.failed r rest }
  have raised : w.raise .nvStore 0 = { w with blocks := (w.raise .nvStore 0).blocks, fn := (w.raise .nvStore 0).fn } :=
    State.raise_nvfail hp
  have told := (w.raise .nvStore 0).err_told r.mb .nvfail 0
  have set : (w.raise .nvStore 0).statusBit .nvStore 0 = true :=
    State.raise_status _ _ _ _ w (.inr ⟨rfl, rfl, by decide, rfl⟩)
  have ends : (w.raise .nvStore 0).endsNow r.mb = true := by
    rw [raised]
    exact he
  have mbx : (w.raise .nvStore 0).mbx = s.mbx := by rw [raised]
  have self : ((w.raise .nvStore 0).err r.mb .nvfail 0).mbx[r.mb] = s.mbx[r.mb].finish 3 [BitVec.ofNat 16 0 ++ ECode.nvfail.val] := by
    rw [State.err, State.complete_self ends, mbx]
  have quiet : ((w.raise .nvStore 0).err r.mb .nvfail 0).noReset = true := State.complete_noReset mbx hr r.mb 3 _
  obtain ⟨frame, mail⟩ := State.settle_beside quiet
  have run : s.storeComplete false = ((w.raise .nvStore 0).err r.mb .nvfail 0).settle := by
    rw [State.storeComplete, hs]
    rfl
  unfold State.Told at told
  generalize (w.raise .nvStore 0).err r.mb .nvfail 0 = x at *
  generalize w.raise .nvStore 0 = y at *
  have blocks := congrArg State.blocks told
  have nv := congrArg State.nv told
  have nodeP := congrArg State.nodeP told
  have nvRaised := congrArg State.nv raised
  have nodePRaised := congrArg State.nodeP raised
  refine ⟨x.settle, _, congrArg Host.Outcome.next run, ?_, (State.statusBit_blocks ?_ _ _).trans set,
    (mail r.mb (by rw [self]; exact nofun)).trans self, ?_⟩ <;> rw [frame]
  · exact nv.trans nvRaised
  · exact blocks
  · exact nodeP.trans nodePRaised

/-! ### The position log (R516, R517) -/

theorem Nv.addEntry_ring (axis : BitVec 5) (kind : BitVec 2) (posunk : Bool) (pos : Int) (rtc : Word) (v : Nv) :
    (v.addEntry axis kind posunk pos rtc).ring =
      ⟨v.ringSeqNo + 1, axis, kind, posunk, BitVec.ofInt 48 pos, rtc⟩ :: v.ring.take 2047 := rfl

section Log
variable {s : State} {n : AxisId} {off posunk : Bool} {pos : Int} {rest : List (AxisId × Bool × Bool × Int)}

theorem poslogWrite_writes (hd : s.nv.ringDue = (n, off, posunk, pos) :: rest) (ho : s.kiln.open_ = true)
    (hg : s.nv.gapPend = false) : exec (.poslogEntryWrite true) s = .next { s with nv :=
      { s.nv.addEntry (BitVec.ofNat 5 n.val) (if off then 1 else 0) posunk pos s.keep.rtc with ringDue := rest } } := by
  refine congrArg Host.Outcome.next ?_
  rw [State.poslogWrite, hd, ho, hg]
  rfl

/-- A gap entry goes before the first entry after the window reopens (R517). -/
theorem poslogWrite_gap (hd : s.nv.ringDue = (n, off, posunk, pos) :: rest) (ho : s.kiln.open_ = true)
    (hg : s.nv.gapPend = true) : exec (.poslogEntryWrite true) s =
      .next { s with nv := { s.nv.addEntry 31 3 false 0 s.keep.rtc with gapPend := false } } := by
  refine congrArg Host.Outcome.next ?_
  rw [State.poslogWrite, hd, ho, hg]
  rfl

end Log

theorem storeWrites : StoreWrites := by
  intro s
  refine ⟨fun r rest hs hr he => ?_, fun r rest hs hr he hp => ?_, fun r rest hs hd hw hr => ?_,
    fun n off posunk pos rest v hd ho => ?_, fun n off posunk pos rest hd ho hg => ?_, fun n off posunk pos rest hd ho hg => ?_⟩
  · obtain ⟨u, w, ws, run, hw, frame, mail⟩ := storeComplete_verified hs hr
    have done : (w.done r.mb ws).mbx[r.mb] = w.mbx[r.mb].finish 2 ws :=
      State.complete_self (by rw [hw]; exact he) 2 ws
    have self : u.mbx[r.mb] = w.mbx[r.mb].finish 2 ws := (mail r.mb (by rw [done]; exact nofun)).trans done
    have nv : u.nv = s.nv.stored r rest := by rw [frame, hw]
    refine ⟨u, run, ?_⟩
    rw [self, nv, Nv.stored_setNow]
    refine ⟨rfl, rfl, rfl, rfl, rfl, Mailbox.finish_state _ _ _, rfl, ?_, ?_⟩ <;> rw [frame, hw]
  · obtain ⟨u, ws, run, nv, set, self, nodeP⟩ := storeComplete_failed hs hr he hp
    refine ⟨u, run, ?_⟩
    rw [self, nv]
    exact ⟨rfl, rfl, rfl, rfl, set, rfl, Mailbox.finish_state _ _ _, nodeP⟩
  · obtain ⟨u, w, ws, run, hw', frame, mail⟩ := storeComplete_verified hs hr
    have mbx : w.mbx = s.mbx := by rw [hw']
    have ended : (w.done r.mb ws).mbx[r.mb] = { s.mbx[r.mb] with phase := .ended 2 ws } := by
      have held : w.endsNow r.mb = false := by
        have halted : w.debugHalted = true := by
          rw [hw']
          exact hd
        have taken : w.mbx[r.mb].taken = true := by rw [Mailbox.taken, mbx, hw]
        rw [State.endsNow, halted, taken, Bool.and_self, Bool.not_true, Bool.and_false]
      have waits : w.mbx[r.mb].phase ≠ .idle := by
        rw [mbx, hw]
        exact nofun
      rw [State.done, State.complete_held held waits, State.modMb_same, mbx]
    refine ⟨u, ws, run, ?_, (mail r.mb (by rw [ended]; exact nofun)).trans ended⟩
    rw [frame, hw']
    rfl
  · refine congrArg Host.Outcome.next ?_
    rw [State.poslogWrite, hd, ho]
    rfl
  · exact ⟨_, poslogWrite_writes hd ho hg, rfl, rfl, rfl, rfl, rfl, rfl⟩
  · exact ⟨_, poslogWrite_gap hd ho hg, rfl, rfl, rfl, rfl⟩

/-- Settles O21: the boot by its three events, the store by the outcomes of a write. -/
theorem bootAndStoreEvents : Obligations.BootAndStoreEvents := ⟨bootSequence, storeWrites⟩

end Sys2Proof.Machine
end

section
/-! PROOF. STOP, S_STOP, HOME and SET_POSITION (R134, R172 to R177, R291). -/
namespace Sys2Proof.Machine

/-- A bit of a payload word that may be absent (R172). -/
theorem Mailbox.arg_getLsbD (x : Mailbox) (k i : Nat) :
    (x.arg k).getLsbD i = (decide (k ≤ x.count) && (x.pay k).getLsbD i) := by
  by_cases h : k ≤ x.count <;> simp [Mailbox.arg, h]

section Axis
variable {s : State} {m : MbId} {n : AxisId}

/-- Check 6 passes an axis that is open to motion (R174). -/
theorem State.motionErr_of_open (h : motionOpen s n) : s.motionErr n = none := by
  obtain ⟨hv, hst, hmode, hstop⟩ := h
  have reached : ¬ (s.banks[bankOf n].view = .unpowered ∨ s.banks[bankOf n].view = .linking ∨
      s.banks[bankOf n].view = .orphan) := by rw [hv]; decide
  have enabled : ¬ (s.axes[n].eng.st = .off ∨ s.banks[bankOf n].view = .service ∨ s.banks[bankOf n].view = .safe) := by
    rw [hv]; simpa using hst
  have free : ¬ (s.axes[n].eng.st = .stopping ∧ s.axes[n].eng.cause ≠ .command) := fun e => e.2 (hstop e.1)
  rw [State.motionErr, if_neg reached, if_neg enabled, if_neg (not_not_intro hmode), if_neg free]

/-- A stop lands in every state of the axis (R174, R176). -/
theorem State.stopCmd_lands (quick : Bool) : s.stopCmd m quick (.axis n) =
    (s.modAxis n fun a => { a with eng := { a.eng with armed := none, staged := some (.stop quick) },
                                   obn := { a.obn with hpend := none } }).done m [appliesAt s false] := rfl

/-- A redefinition lands where the axis is OFF, or in STANDBY with no armed move (R177). -/
theorem State.setPosition_lands
    (h : s.axes[n].eng.st = .off ∨ (s.axes[n].eng.st = .standby ∧ s.axes[n].eng.armed = none))
    (hp : s.axes[n].eng.redefOk s.mbx[m].posArg = true) : s.setPosition m (.axis n) =
      (s.modAxis n fun a => { a with eng := { a.eng with setPos := some s.mbx[m].posArg } }).done m [appliesAt s false] := by
  simp only [State.setPosition, if_pos h, if_pos hp]
  rfl

theorem State.setPosition_refused (ho : s.axes[n].eng.st ≠ .off)
    (ha : s.axes[n].eng.st = .standby → s.axes[n].eng.armed ≠ none) : s.setPosition m (.axis n) = s.err m .state 0 := by
  have closed : ¬ (s.axes[n].eng.st = .off ∨ (s.axes[n].eng.st = .standby ∧ s.axes[n].eng.armed = none)) := by
    rintro (h | ⟨hs, hn⟩)
    · exact ho h
    · exact ha hs hn
  simp only [State.setPosition, if_neg closed]

/-- HOME lands as a velocity move at the homing velocity, with its run pending (R291, R292). -/
theorem State.homeCmd_lands (h : motionOpen s n) (hs : s.axes[n].eng.st = .standby) (hb : s.homeBlind n = false) :
    s.homeCmd m (.axis n) = (s.modAxis n fun a =>
      { a with eng := { a.eng with armed := none,
                                   staged := some (.move ⟨.velocity (sgn (s.pA n.val 0x3600 0)), ⟨0, 0, 0, 0⟩⟩) },
               obn := { a.obn with hpend := some ((s.mbx[m].arg 1).getLsbD 0) } }).done m [appliesAt s false] := by
  have seen : ¬ (s.axes[n].eng.st ≠ .standby ∨ s.homeBlind n = true) := by rw [hs, hb]; decide
  simp only [State.homeCmd, State.motionErr_of_open h, if_neg seen, State.landMotion, State.modAxis_modAxis]
  rfl

end Axis

/-- Settles O5: each command lands as its effect on the axis says, and the engine completes it. -/
theorem stopHomeSetPosition : Obligations.StopHomeSetPosition := by
  unfold Obligations.StopHomeSetPosition
  intro s m n x stopped
  refine ⟨fun h => ?_, fun h => ?_, fun h ho hp => ?_, fun h ho ha => ?_, fun h ho hs hb => ?_⟩
  · rw [← Mailbox.arg_getLsbD]
    exact State.run_done h _ _ (State.stopCmd_lands _) rfl
  · exact State.run_done h _ _ (State.stopCmd_lands false) rfl
  · exact State.run_done h _ _ (State.setPosition_lands ho hp) rfl
  · exact State.run_err h _ _ _ (State.setPosition_refused ho ha) rfl
  · rw [← Mailbox.arg_getLsbD]
    exact State.run_done h _ _ (State.homeCmd_lands ho hs hb) rfl

end Sys2Proof.Machine
end

section
/-! SUPPORT. What a trigger, the end of a conversion, an edge of a pin and a compare pulse do (R190, R379, R384 to R387, R391,
R394, R570). -/
namespace Sys2Proof.Machine

/-! ## Triggers (R384, R385, R394) -/

section Trigger
variable {s : State} {k : Nat}

theorem State.auxTrigger_stopped (k : Nat) (hr : s.auxs.running = false) : s.auxTrigger k = s := by
  simp [State.auxTrigger, hr]

theorem State.auxTrigger_starts (hr : s.auxs.running = true) (hw : s.auxs.waiting = true) (hk : s.strg s.auxs.slot = k) :
    s.auxTrigger k = { s with auxs := { s.auxs with waiting := false, busy := true } } := by
  simp [State.auxTrigger, hr, hw, hk]

theorem State.auxTrigger_misses (hr : s.auxs.running = true)
    (hn : s.auxs.waiting = false ∨ s.strg s.auxs.slot ≠ k) : s.auxTrigger k = s.auxMiss := by
  have untaken : ¬ (s.auxs.waiting = true ∧ s.strg s.auxs.slot = k) := by
    rintro ⟨hw, hk⟩
    exact hn.elim (fun h => absurd (hw.symm.trans h) (by decide)) (absurd hk)
  simp [State.auxTrigger, hr, untaken]

/-- The first miss of an episode raises AMISS (R394). -/
theorem State.auxMiss_raises (ht : s.auxq.dropTick = false) (hl : s.auxq.dropLast = false) :
    State.RaisedAt { s with auxq := { s.auxq with dropTick := true } } .aux 2 s.auxMiss := by
  have raised : s.auxMiss = State.raise .aux 2 { s with auxq := { s.auxq with dropTick := true } } := by
    simp [State.auxMiss, State.raiseIf, ht, hl]
  rw [raised]
  exact State.raise_raisedAt .aux 2 _ (by decide) rfl

/-- A further miss of an episode is silent (R394). -/
theorem State.auxMiss_again (h : s.auxq.dropTick = true ∨ s.auxq.dropLast = true) :
    s.auxMiss = { s with auxq := { s.auxq with dropTick := true } } := by
  rcases h with h | h <;> simp [State.auxMiss, State.raiseIf, h]

/-- A trigger finds the sequencer stopped, starts the armed slot, or is missed (R384). -/
theorem State.auxTrigger_cases (k : Nat) (s : State) : s.auxTrigger k = s ∨
    s.auxTrigger k = { s with auxs := { s.auxs with waiting := false, busy := true } } ∨ s.auxTrigger k = s.auxMiss := by
  cases hr : s.auxs.running with
  | false => exact .inl (State.auxTrigger_stopped k hr)
  | true =>
    by_cases h : s.auxs.waiting = true ∧ s.strg s.auxs.slot = k
    · exact .inr (.inl (State.auxTrigger_starts hr h.1 h.2))
    · refine .inr (.inr (State.auxTrigger_misses hr ?_))
      rwa [Decidable.not_and_iff_not_or_not, Bool.not_eq_true] at h

/-- A trigger reaches no pin and changes no parameter. -/
theorem State.auxTrigger_pins (k : Nat) (s : State) :
    (s.auxTrigger k).gpio = s.gpio ∧ (s.auxTrigger k).nodeP = s.nodeP := by
  rcases State.auxTrigger_cases k s with e | e | e <;> rw [e]
  · exact ⟨rfl, rfl⟩
  · exact ⟨rfl, rfl⟩
  · have raised : State.Raised { s with auxq := { s.auxq with dropTick := true } } s.auxMiss := State.raiseIf_raised ..
    have pins := congrArg State.gpio raised
    have params := congrArg State.nodeP raised
    exact ⟨pins, params⟩

/-- An immediate slot starts at its arming (R384). -/
theorem exec_auxConversionStart (hw : s.auxs.waiting = true) (hk : s.strg s.auxs.slot = 0) :
    exec .auxConversionStart s = .next (s.auxTrigger 0) :=
  congrArg Host.Outcome.next (if_pos ⟨hw, hk⟩)

/-- The selected moment of the selected bank is a trigger while the bank is reached (R385). -/
theorem State.auxSync_selected {b : BankId} {centre : Bool} (hb : b.val = fieldN (s.pA 0 0x6800 0) 8 3)
    (hc : centre = true ↔ fieldN (s.pA 0 0x6800 0) 7 1 = 1) (hl : s.linked b = true) :
    s.auxSync b centre = s.auxTrigger 3 :=
  if_pos ⟨hb, Bool.eq_iff_iff.mpr (by simpa using hc), hl⟩

end Trigger

/-! ## The end of a conversion (R379, R386, R391) -/

/-- A bit is clear where the field of that bit alone is 0. -/
theorem getLsbD_eq_false_of_fieldN {w : Word} {i : Nat} (h : fieldN w.toNat i 1 = 0) : w.getLsbD i = false := by
  rw [fieldN, Nat.pow_one] at h
  rw [BitVec.getLsbD, Nat.testBit_eq_decide_div_mod_eq, h]
  rfl

/-- Comparators that are all disabled judge nothing (R391). -/
theorem Queue.judge_disabled {lim : Nat → Word} (h : ∀ i, i < 4 → (lim (2 * i)).getLsbD 31 = false) (w : Word)
    (q : Queue) : q.judge lim w = (q, []) := by
  have none_judges (i : Nat) (hi : i < 4) : judges lim i w = false := by rw [judges, h i hi, Bool.false_and]
  simp [Queue.judge, none_judges]

/-- An entry enters an enabled queue that has room (R382, R386). -/
theorem Queue.insert_stores {q : Queue} {cap : Nat} (he : q.en = true) (hl : q.fifo.length < cap) (w : Word) :
    q.insert cap w = ({ q with fifo := q.fifo ++ [w] }, false) := by
  simp [Queue.insert, he, hl]

/-- One entry, judged by no comparator, is stored and raises nothing. -/
theorem Queue.load_stores {q : Queue} {cap : Nat} {lim : Nat → Word} (he : q.en = true) (hl : q.fifo.length < cap)
    (h : ∀ i, i < 4 → (lim (2 * i)).getLsbD 31 = false) (w : Word) :
    q.load cap lim [w] = ({ q with fifo := q.fifo ++ [w] }, []) := by
  simp [Queue.load, Queue.judge_disabled h, Queue.insert_stores he hl]

/-- Within a pass the next slot is armed (R384). -/
theorem State.auxNext_arms {s : State} (h : s.auxs.slot + 1 < s.seqn) :
    s.auxNext = { s with auxs := { s.auxs with slot := s.auxs.slot + 1, waiting := true, busy := false } } :=
  if_pos h

section Conversion
variable {s : State} (c0 c1 : Half)

theorem State.auxDone_idle (hb : s.auxs.busy = false) : s.auxDone c0 c1 = s :=
  if_neg (by rw [hb]; decide)

/-- The end of a single conversion within a pass (R379, R384, R386). -/
theorem State.auxDone_stores (hb : s.auxs.busy = true) (he : s.auxq.en = true) (hl : s.auxq.fifo.length < 256)
    (hs : s.auxs.slot + 1 < s.seqn) (hc : ∀ i, i < 4 → fieldN (s.pA 0 0x6901 (2 * i)) 31 1 = 0)
    (hk : fieldN (s.pA 0 0x6801 s.auxs.slot) 30 2 = 0) :
    s.auxDone c0 c1 = { s with
      auxq := { s.auxq with fifo := s.auxq.fifo ++ [auxEntry false s.auxs.slot s.auxs.pass c0] },
      auxs := { s.auxs with slot := s.auxs.slot + 1, waiting := true, busy := false } } := by
  have entries : auxEntries 0 s.auxs.slot s.auxs.pass c0 c1 = [auxEntry false s.auxs.slot s.auxs.pass c0] := rfl
  have loads := Queue.load_stores (lim := fun i => s.wA 0 0x6901 i) he hl (fun i hi => getLsbD_eq_false_of_fieldN (hc i hi))
    (auxEntry false s.auxs.slot s.auxs.pass c0)
  simp only [State.auxDone, if_pos hb, hk, entries, loads]
  exact State.auxNext_arms (s := { s with auxq := { s.auxq with fifo := _ } }) hs

end Conversion

/-! ## Pins (R384, R570) -/

/-- The bit of a pin in a word of pins. -/
theorem pinBit_getLsbD (p q : PinId) : (1#16 <<< p.val).getLsbD q.val = decide (q = p) := by
  by_cases h : q = p
  · subst h; simp
  · have ne : q.val ≠ p.val := Fin.val_ne_of_ne h
    by_cases lt : q.val < p.val <;> simp [h, lt]
    omega

/-- A word of pins with the bit of one pin written. -/
theorem writePin_getLsbD (x : BitVec 16) (p q : PinId) (level : Bool) :
    (if level then x ||| 1#16 <<< p.val else x &&& ~~~(1#16 <<< p.val)).getLsbD q.val =
      if q = p then level else x.getLsbD q.val := by
  cases level with
  | false =>
    rw [if_neg Bool.false_ne_true, BitVec.getLsbD_and, BitVec.getLsbD_not, pinBit_getLsbD]
    by_cases h : q = p <;> simp [h]
  | true =>
    rw [if_pos rfl, BitVec.getLsbD_or, pinBit_getLsbD]
    by_cases h : q = p <;> simp [h]

/-- Setting the bit of a pin that is set changes nothing. -/
theorem or_pinBit_of_set {x : BitVec 16} {p : PinId} (h : x.getLsbD p.val = true) : x ||| 1#16 <<< p.val = x := by
  refine BitVec.eq_of_getLsbD_eq fun i hi => ?_
  have bit := pinBit_getLsbD p ⟨i, hi⟩
  rw [BitVec.getLsbD_or, bit]
  by_cases e : (⟨i, hi⟩ : PinId) = p
  · subst e; simpa using h
  · simp [e]

section Edge
variable {s : State} {p : PinId} {level : Bool}

/-- The state with the filtered level of a pin changed (R570). -/
def State.setLevel (p : PinId) (level : Bool) (s : State) : State :=
  { s with gpio := { s.gpio with
      lvl := if level then s.gpio.lvl ||| 1#16 <<< p.val else s.gpio.lvl &&& ~~~(1#16 <<< p.val) } }

theorem State.setLevel_lvl (p q : PinId) (level : Bool) (s : State) :
    (s.setLevel p level).gpio.lvl.getLsbD q.val = if q = p then level else s.gpio.lvl.getLsbD q.val :=
  writePin_getLsbD ..

theorem State.gpioEdge_same (h : s.gpio.lvl.getLsbD p.val = level) : s.gpioEdge p level = s := if_pos h

/-- An edge is a change of level, and a trigger where it is the selected one (R384). -/
theorem State.gpioEdge_changes (h : s.gpio.lvl.getLsbD p.val ≠ level) :
    s.gpioEdge p level =
      if p.val = fieldN (s.pA 0 0x6800 0) 12 4 ∧ level = decide (fieldN (s.pA 0 0x6800 0) 11 1 = 0) then
        (s.setLevel p level).auxTrigger 2
      else s.setLevel p level := if_neg h

/-- Whether or not it is a trigger, an edge changes no pin but the level, and no parameter. -/
theorem State.gpioEdge_pins (h : s.gpio.lvl.getLsbD p.val ≠ level) :
    (s.gpioEdge p level).gpio = (s.setLevel p level).gpio ∧ (s.gpioEdge p level).nodeP = s.nodeP := by
  rw [State.gpioEdge_changes h]
  split
  · exact State.auxTrigger_pins 2 (s.setLevel p level)
  · exact ⟨rfl, rfl⟩

/-- The selected edge of the selected pin is a trigger (R384). -/
theorem State.gpioEdge_triggers (h : s.gpio.lvl.getLsbD p.val ≠ level) (hp : p.val = fieldN (s.pA 0 0x6800 0) 12 4)
    (hl : level = true ↔ fieldN (s.pA 0 0x6800 0) 11 1 = 0) :
    s.gpioEdge p level = (s.setLevel p level).auxTrigger 2 :=
  (State.gpioEdge_changes h).trans (if_pos ⟨hp, Bool.eq_iff_iff.mpr (by simpa using hl)⟩)

end Edge

/-! ## Compare pulses (R190) -/

/-- The pulse that starts first is one of the list. -/
theorem firstPulse_mem {l : List Pulse} : ∀ q, firstPulse l = some q → q ∈ l := by
  unfold firstPulse
  refine List.foldlRecOn (motive := fun o => ∀ q, o = some q → q ∈ l) l _ nofun fun o ho r hr q hq => ?_
  cases o with
  | none => exact Option.some.inj hq ▸ hr
  | some t =>
    by_cases h : r.start < t.start
    · exact Option.some.inj ((if_pos h).symm.trans hq) ▸ hr
    · exact ho q ((if_neg h).symm.trans hq)

section Pulses
variable {s : State} {p : PinId}

/-- No pulse starts in a tick that precedes every start. -/
theorem State.pulseDue_none (h : ∀ q ∈ s.gpio.due[p], 24000 * s.units ≤ q.start) : s.pulseDue p = none := by
  refine Option.filter_eq_none_iff.mpr fun q hq => ?_
  have later := h q (firstPulse_mem q hq)
  simpa using later

/-- The only pulse scheduled starts in its tick. -/
theorem State.pulseDue_single {q : Pulse} (hd : s.gpio.due[p] = [q]) (hq : q.start < 24000 * s.units) :
    s.pulseDue p = some q := by
  rw [State.pulseDue, hd]
  exact if_pos (decide_eq_true hq)

theorem exec_comparePulseStart_none (h : s.pulseDue p = none) : exec (.comparePulseStart p) s = .next s := by
  change execComparePulseStart p s = _
  rw [execComparePulseStart, h]

/-- A pulse that is due starts, or extends the one that runs (R190). -/
theorem exec_comparePulseStart_some {q : Pulse} (h : s.pulseDue p = some q) :
    exec (.comparePulseStart p) s = .next { s with gpio := { s.gpio with
      due := s.gpio.due.set p.val (s.gpio.due[p].erase q), pulse := s.gpio.pulse ||| 1#16 <<< p.val,
      ends := s.gpio.ends.set p.val (if s.gpio.pulse.getLsbD p.val then max s.gpio.ends[p] (q.start + q.width)
        else q.start + q.width) } } := by
  change execComparePulseStart p s = _
  rw [execComparePulseStart, h]

/-- A running pulse ends in its tick unless one that is scheduled extends it (R190). -/
theorem exec_comparePulseEnd_ends (hr : s.gpio.pulse.getLsbD p.val = true) (he : s.gpio.ends[p] ≤ 24000 * s.units)
    (hd : ∀ q ∈ s.gpio.due[p], s.gpio.ends[p] < q.start) :
    exec (.comparePulseEnd p) s =
      .next { s with gpio := { s.gpio with pulse := s.gpio.pulse &&& ~~~(1#16 <<< p.val) } } :=
  congrArg Host.Outcome.next (if_pos ⟨hr, he, List.all_eq_true.mpr fun q hq => decide_eq_true (hd q hq)⟩)

theorem exec_comparePulseEnd_runs (h : 24000 * s.units < s.gpio.ends[p]) : exec (.comparePulseEnd p) s = .next s :=
  congrArg Host.Outcome.next (if_neg fun e => absurd e.2.1 (Nat.not_le.mpr h))

end Pulses

end Sys2Proof.Machine
end

section
/-! PROOF. The auxiliary sequencer, GPIO edges and compare pulses (R190, R379, R384 to R387, R394, R570). -/
namespace Sys2Proof.Machine

theorem sequencerRuns : SequencerRuns := by
  unfold SequencerRuns
  intro s
  refine ⟨fun hr hw hk => ?_, fun hr hw hk => ?_, fun b c hb hc hl hr hw hk => ?_, fun hr hn ht hl => ?_,
    fun hr hn h => ?_, fun hr => ?_, fun c0 c1 hb he hl hs hc hk => ?_, fun c0 c1 hb => ?_⟩
  · exact congrArg Host.Outcome.next (State.auxTrigger_starts hr hw hk)
  · exact (exec_auxConversionStart hw hk).trans (congrArg Host.Outcome.next (State.auxTrigger_starts hr hw hk))
  · exact congrArg Host.Outcome.next ((State.auxSync_selected hb hc hl).trans (State.auxTrigger_starts hr hw hk))
  · exact ⟨_, congrArg Host.Outcome.next (State.auxTrigger_misses hr hn), State.auxMiss_raises ht hl⟩
  · exact congrArg Host.Outcome.next ((State.auxTrigger_misses hr hn).trans (State.auxMiss_again h))
  · exact congrArg Host.Outcome.next (State.auxTrigger_stopped 1 hr)
  · exact congrArg Host.Outcome.next (State.auxDone_stores c0 c1 hb he hl hs hc hk)
  · exact congrArg Host.Outcome.next (State.auxDone_idle c0 c1 hb)

theorem gpioAndPulses : GpioAndPulses := by
  unfold GpioAndPulses
  intro s p bit a cfg
  refine ⟨fun level h => ?_, fun level h => ?_, fun q hd hq hp => ?_, fun q hd hq hp => ?_, fun h => ?_,
    fun hr he hd => ?_, fun h => ?_⟩
  · exact congrArg Host.Outcome.next (State.gpioEdge_same h)
  · obtain ⟨pins, params⟩ := State.gpioEdge_pins h
    refine ⟨s.gpioEdge p level, rfl, ?_, fun q hq => ?_, by rw [pins]; rfl, by rw [pins]; rfl, params,
      fun hp hl hr hw hk => ?_⟩
    · rw [pins, State.setLevel_lvl, if_pos rfl]
    · rw [pins, State.setLevel_lvl, if_neg hq]
    · rw [State.gpioEdge_triggers h hp hl, State.auxTrigger_starts (s := s.setLevel p level) hr hw hk]
      rfl
  · rw [exec_comparePulseStart_some (State.pulseDue_single hd hq), hd, List.erase_cons_head, hp]
    rfl
  · refine ⟨_, exec_comparePulseStart_some (State.pulseDue_single hd hq), or_pinBit_of_set hp, ?_, ?_⟩
    · rw [hd, List.erase_cons_head]
      exact Vector.getElem_set_self ..
    · rw [if_pos hp]
      exact Vector.getElem_set_self ..
  · exact exec_comparePulseStart_none (State.pulseDue_none h)
  · exact exec_comparePulseEnd_ends hr he hd
  · exact exec_comparePulseEnd_runs h

/-- Settles O23: a trigger by what the slot waits for, an edge by its level and trigger, a pulse by what is due. -/
theorem sequencerAndGpioEvents : Obligations.SequencerAndGpioEvents := ⟨sequencerRuns, gpioAndPulses⟩

end Sys2Proof.Machine
end

section
/-! PROOF. Emulation outputs and the step input (R199, R200, R412 to R415, R541). -/
namespace Sys2Proof.Machine

/-! ## Emulation outputs (R413 to R415) -/

section Emulation
variable {s t : State} {n : EmuId}

/-- An output that is not driven has no backlog (R415). -/
theorem Emu.backlog_released {e : Emu} (h : e.driven = false) (c : EmuCfg) (len clk : Nat) : e.backlog c len clk = 0 := by
  rw [Emu.backlog, h]
  rfl

/-- A step towards the target, where one is due and the gap has passed, never where the output is not driven, and never
changing what drives it (R413, R415). -/
theorem Emu.advance_e (c : EmuCfg) (gap len clk now : Nat) (e : Emu) :
    (e.advance c gap len clk now).driven = e.driven ∧
      (e.advance c gap len clk now).e =
        e.e + (if e.backlog c len clk ≠ 0 ∧ e.stepAt + gap ≤ now then (e.backlog c len clk).sign else 0) ∧
      (e.driven = false → (e.advance c gap len clk now).e = e.e) := by
  unfold Emu.advance
  extract_lets b
  by_cases due : b ≠ 0 ∧ e.stepAt + gap ≤ now
  · rw [if_pos due, if_pos due]
    exact ⟨rfl, rfl, fun released => absurd (Emu.backlog_released released c len clk) due.1⟩
  · rw [if_neg due, if_neg due]
    exact ⟨rfl, (Int.add_zero _).symm, fun _ => rfl⟩

/-- With nothing staged, no parameter comes into force (R414). -/
theorem State.emuApply_same (h : ∀ i, 0x5800 ≤ i → i ≤ 0x5802 → s.pS n.val i 0 = s.pA n.val i 0) : s.emuApply n = s := by
  have same (i : Nat) (l : 0x5800 ≤ i) (u : i ≤ 0x5802) :
      paramGet s.nodeP.staged (keyOf n.val i 0) = paramGet s.nodeP.applied (keyOf n.val i 0) :=
    BitVec.eq_of_toNat_eq (h i l u)
  unfold State.emuApply
  refine if_neg fun ⟨differs, _⟩ => ?_
  simp [same] at differs

/-- A raise does not reach the emulation outputs (R469). -/
theorem State.FaultFrame.emus (h : s.FaultFrame t) : t.emus = s.emus := by
  rw [h.1]

/-- What a frame says, it says for any emulation outputs. -/
theorem State.FaultFrame.withEmus (h : s.FaultFrame t) (l : Vector Emu 4) :
    ({ s with emus := l } : State).FaultFrame { t with emus := l } := by
  obtain ⟨frame, axes, banks, kept⟩ := h
  exact ⟨congrArg (fun u : State => { u with emus := l }) frame, axes, banks, kept⟩

/-- Judging an output raises EMLAG at most, and changes nothing of the outputs but its lag mark (R415). -/
theorem State.emuJudge_frame (n : EmuId) (s : State) :
    ({ s with emus := (s.emuJudge n).emus } : State).FaultFrame (s.emuJudge n) ∧
      (∃ up, (s.emuJudge n).emus[n] = { s.emus[n] with lagUp := up }) ∧
      ∀ k : EmuId, k ≠ n → (s.emuJudge n).emus[k] = s.emus[k] := by
  unfold State.emuJudge
  extract_lets b beyond
  have raised := State.raiseIf_frame (beyond && !s.emus[n].lagUp) (.emu n) 0
    (s.modEmu n fun e => { e with lagUp := (e.lagUp || beyond) && decide (b ≠ 0) })
  have kept := raised.emus
  refine ⟨?_, ⟨(s.emus[n].lagUp || beyond) && decide (b ≠ 0), ?_⟩, fun k hk => ?_⟩
  · rw [kept]
    exact raised
  · rw [kept, State.modEmu_same]
  · rw [kept]
    exact State.modEmu_other s _ hk

/-- Between two judgements the output takes a change; the rest of the state is left but for faults raised (R415). -/
theorem State.emuJudge_modEmu_emuJudge (n : EmuId) (f : Emu → Emu) (s : State) {u : State}
    (hu : u = ((s.emuJudge n).modEmu n f).emuJudge n) :
    ({ s with emus := u.emus } : State).FaultFrame u ∧
      (∃ before after, u.emus[n] = { f { s.emus[n] with lagUp := before } with lagUp := after }) ∧
      ∀ k : EmuId, k ≠ n → u.emus[k] = s.emus[k] := by
  obtain ⟨frame1, ⟨before, self1⟩, other1⟩ := State.emuJudge_frame n s
  obtain ⟨frame2, ⟨after, self2⟩, other2⟩ := State.emuJudge_frame n ((s.emuJudge n).modEmu n f)
  rw [← hu] at frame2 self2 other2
  refine ⟨(frame1.withEmus u.emus).trans frame2, ⟨before, after, ?_⟩, fun k hk => ?_⟩
  · rw [self2, State.modEmu_same, self1]
  · rw [other2 k hk, State.modEmu_other _ f hk, other1 k hk]

/-- EMULATOR_STEP with nothing staged: the output is judged, makes its step where one is due, and is judged again (R413 to
R415). -/
theorem exec_emulatorStep (x : EmuAt) (h : ∀ i, 0x5800 ≤ i → i ≤ 0x5802 → s.pS x.out.val i 0 = s.pA x.out.val i 0) :
    exec (.emulatorStep x) s = .next ((((s.atClock x.clock).emuJudge x.out).modEmu x.out
      (Emu.advance (s.emuCfg x.out) (s.pA x.out.val 0x5802 0) (12000 * s.units) (max s.clk x.clock)
        (12000 * s.edgeT + max s.clk x.clock))).emuJudge x.out) := by
  have same : (s.atClock x.clock).emuApply x.out = s.atClock x.clock := State.emuApply_same h
  obtain ⟨⟨frame, -⟩, -⟩ := State.emuJudge_frame x.out (s.atClock x.clock)
  change execEmulatorStep x s = _
  rw [execEmulatorStep, same]
  generalize (s.atClock x.clock).emuJudge x.out = judged at frame ⊢
  have settings : judged.emuCfg x.out = s.emuCfg x.out ∧ judged.pA x.out.val 0x5802 0 = s.pA x.out.val 0x5802 0 ∧
      judged.tickClocks = 12000 * s.units ∧ judged.clk = max s.clk x.clock ∧
      judged.now = 12000 * s.edgeT + max s.clk x.clock := by
    rw [frame]
    exact ⟨rfl, rfl, rfl, rfl, rfl⟩
  obtain ⟨cfg, gap, len, clk, now⟩ := settings
  rw [cfg, gap, len, clk, now]

end Emulation

/-! ## The step input (R199, R200, R541) -/

section StepInput
variable {s : State} {n : AxisId} {rising high : Bool}

/-- The axis after an active edge: the follow path takes the edge, and nothing else changes (R200). -/
def State.stepTaken (n : AxisId) (high : Bool) (s : State) : State :=
  s.modAxis n fun a => { a with fol := a.fol.step (s.followCfg n) (decide ((s.axisCfg n).mode = 1)) high }

theorem State.stepTaken_axis : (s.stepTaken n high).axes[n] = { s.axes[n] with
    fol := s.axes[n].fol.step (s.followCfg n) (decide ((s.axisCfg n).mode = 1)) high } :=
  State.modAxis_same s n _

/-- An active edge of a present axis is taken; one that follows too soon raises SDFAST (R199, R200). -/
theorem exec_stepEdge_taken (hn : n.val < 24) (hp : s.axisPresent n = true)
    (he : activeEdge (s.followCfg n).edgeSel rising = true) (fast : Bool) :
    exec (.stepEdge n rising high fast) s = .next ((s.stepTaken n high).raiseIf fast (.stream n) 1) :=
  congrArg Host.Outcome.next (if_pos ⟨hn, hp, he⟩)

/-- An edge of a carried axis, or one that its axis does not select, is nothing (R199, R541). -/
theorem exec_stepEdge_idle (h : 24 ≤ n.val ∨ activeEdge (s.followCfg n).edgeSel rising = false) (fast : Bool) :
    exec (.stepEdge n rising high fast) s = .next s := by
  refine congrArg Host.Outcome.next (if_neg fun ⟨own, _, active⟩ => ?_)
  rcases h with carried | passive
  · exact absurd own (Nat.not_lt.mpr carried)
  · exact absurd (passive.symm.trans active) Bool.false_ne_true

end StepInput

/-- Settles O26: an output by its step between two judgements, which raise a fault at most; an edge by what its axis
takes. -/
theorem emulationAndSteps : Obligations.EmulationAndSteps := by
  unfold Obligations.EmulationAndSteps
  intro s
  refine ⟨fun x staged => ?_, fun n rising high hn hp he => ?_, fun n rising high hn hp he => ?_,
    fun n rising high fast h => exec_stepEdge_idle h fast⟩
  · obtain ⟨u, hu⟩ : ∃ u, exec (.emulatorStep x) s = .next u := ⟨_, exec_emulatorStep x staged⟩
    obtain ⟨frame, ⟨before, after, self⟩, other⟩ := State.emuJudge_modEmu_emuJudge x.out _ (s.atClock x.clock)
      (Host.Outcome.next.inj (hu.symm.trans (exec_emulatorStep x staged)))
    obtain ⟨driven, steps, idle⟩ := Emu.advance_e (s.emuCfg x.out) (s.pA x.out.val 0x5802 0) (12000 * s.units)
      (max s.clk x.clock) (12000 * s.edgeT + max s.clk x.clock) { s.emus[x.out] with lagUp := before }
    exact ⟨u, hu, frame, (congrArg Emu.driven self).trans driven, (congrArg Emu.e self).trans steps,
      fun released => (congrArg Emu.e self).trans (idle released), other⟩
  · refine ⟨s.stepTaken n high, exec_stepEdge_taken hn hp he false, rfl, ?_, ?_, fun k hk => State.modAxis_other s _ hk⟩
    · rw [State.stepTaken_axis]
      rfl
    · rw [State.stepTaken_axis]
  · refine ⟨_, exec_stepEdge_taken hn hp he true, State.raise_status _ _ _ _ _ (.inr ⟨rfl, rfl, by decide, rfl⟩), ?_⟩
    rw [(State.raiseIf_frame _ _ _ _).2.1 n, State.stepTaken_axis]
    rfl

end Sys2Proof.Machine
end

section
/-! SUPPORT. The memory port: what a raise leaves of it, flushes, and the reads that wait (R469, R477, R500, R502, R503). -/
namespace Sys2Proof.Machine

/-! ## What a raise leaves of the port (R469, R477) -/

section Raised
variable {s t : State}

/-- A raise reaches nothing of the port but its runs, which a halt ends. -/
theorem State.FaultFrame.port (h : s.FaultFrame t) : t.mem = { s.mem with runs := t.mem.runs } :=
  congrArg State.mem h.1

theorem State.FaultFrame.nodeP (h : s.FaultFrame t) : t.nodeP = s.nodeP := by
  rw [h.1]

/-- What a frame says, it says for the port as the raise leaves it. -/
theorem State.FaultFrame.withPort (h : s.FaultFrame t) : ({ s with mem := t.mem } : State).FaultFrame t := by
  have port := h.port
  obtain ⟨frame, axes, banks, kept⟩ := h
  refine ⟨?_, axes, banks, kept⟩
  rw [← port] at frame
  exact frame

/-- What a frame says, it says for the axes as the raise leaves them. -/
theorem State.FaultFrame.withAxes (h : s.FaultFrame t) : ({ s with axes := t.axes } : State).FaultFrame t := by
  obtain ⟨frame, axes, banks, kept⟩ := h
  exact ⟨frame, fun n => rfl, banks, kept⟩

theorem State.raise1_noRuns (i : BlockId) (bit : Nat) (test : Bool) (s : State) (h : s.mem.runs = []) :
    (s.raise1 i bit test).1.mem.runs = [] := by
  unfold State.raise1
  split
  · exact h
  · simp only
    split
    · exact h
    · simp only
      split
      · rfl
      · exact h

/-- A raise starts no run. -/
theorem State.raise_noRuns (i : BlockId) (bit : Nat) (s : State) (h : s.mem.runs = []) :
    (s.raise i bit).mem.runs = [] := by
  have soft (b : BankId) (t : State) (ht : t.mem.runs = []) : (t.requestSoft b).mem.runs = [] := by
    unfold State.requestSoft
    split
    · exact State.raise1_noRuns _ _ _ _ ht
    · exact ht
  have first := State.raise1_noRuns i bit false s h
  unfold State.raise State.raiseT
  simp only
  split
  · exact State.each_keeps (fun t => t.mem.runs = []) _ soft _ _ first
  · exact first

end Raised

/-! ## Program operations (R502, R503) -/

section Ops
variable {s : State}

/-- The parameters at the boundary of an operation: `XWCFG`, `XWFMT` and `XWTIME` as they were staged (R508). -/
def State.operationParams (s : State) : Params :=
  s.nodeP.applyWhere fun k => decide (keyIdent k = 0x7200 ∨ keyIdent k = 0x7201 ∨ keyIdent k = 0x7202)

/-- An operation in an open write window queues its write-enable (R503). -/
theorem State.startOp_opens (h : s.kiln.open_ = true) (o : ProgOp) :
    (s.startOp o).1 = { s with nodeP := s.operationParams, mem := { s.mem with
      refused := false, waiting := s.mem.waiting ++ [⟨.wren o, o.addr, o.slot⟩] } } := by
  unfold State.startOp
  simp only [h, if_true]
  rfl

/-- The first operation that a closed write window refuses raises MEMTEMP (R503). -/
theorem State.startOp_refuses (h : s.kiln.open_ = false) (hr : s.mem.refused = false) (o : ProgOp) :
    (s.startOp o).1 = State.raise .memPort 1 { s with nodeP := s.operationParams, mem := { s.mem with
      refused := true, xaddr := BitVec.ofNat 32 o.addr } } := by
  unfold State.startOp
  simp only [h, hr, Bool.false_eq_true, if_false]
  rfl

/-- The operation of a flush: the page with what was stored in it (R502). -/
def State.flushOp (p : Nat) (s : State) : ProgOp := ⟨p, s.mem.pageData s.xpage, none, s.xwSlot, none, 0, 0⟩

theorem State.flushBuffer_page {p : Nat} (h : s.mem.wpage = some p) : s.flushBuffer =
    (State.startOp (s.flushOp p) { s with mem := { s.mem with wpage := none, wbuf := [] } }).1 := by
  rw [State.flushBuffer, h]
  rfl

theorem State.flushBuffer_empty (h : s.mem.wpage = none) : s.flushBuffer = s := by
  rw [State.flushBuffer, h]

/-- A flush in an open write window queues the write-enable of its page (R502, R503). -/
theorem State.flushBuffer_opens {p : Nat} (h : s.mem.wpage = some p) (ho : s.kiln.open_ = true) :
    s.flushBuffer = { s with nodeP := s.operationParams, mem := { s.mem with
      wpage := none, wbuf := [], refused := false,
      waiting := s.mem.waiting ++ [⟨.wren (s.flushOp p), p, s.xwSlot⟩] } } :=
  (State.flushBuffer_page h).trans
    (State.startOp_opens (s := { s with mem := { s.mem with wpage := none, wbuf := [] } }) ho _)

/-- The first flush that a closed write window refuses loses its page, and raises MEMTEMP (R503). -/
theorem State.flushBuffer_refuses {p : Nat} (h : s.mem.wpage = some p) (ho : s.kiln.open_ = false)
    (hr : s.mem.refused = false) : s.flushBuffer = State.raise .memPort 1 { s with
      nodeP := s.operationParams, mem := { s.mem with
        wpage := none, wbuf := [], refused := true, xaddr := BitVec.ofNat 32 p } } :=
  (State.flushBuffer_page h).trans
    (State.startOp_refuses (s := { s with mem := { s.mem with wpage := none, wbuf := [] } }) ho hr _)

end Ops

/-! ## Reads that wait (R500) -/

section Reads
variable {s : State} {a : Nat}

/-- Where no read waits, none is served. -/
theorem State.serveReads_none (h : s.mem.readWait = []) : s.serveReads = s := by
  rw [State.serveReads, h]
  rfl

/-- The read that waits alone is served from its line. -/
theorem State.serveReads_line {l : List Byte} (h : s.mem.readWait = [a]) (hl : s.mem.line? a = some l) :
    s.serveReads = s.modMem fun m => { m with readData := lineWord l a, readWait := [] } := by
  rw [State.serveReads, h]
  simp [State.each, hl, State.modMem, h]

/-- The read that waits alone asks for its line, which is not under way. -/
theorem State.serveReads_fill (h : s.mem.readWait = [a]) (hl : s.mem.line? a = none) (hf : s.mem.filling a = false) :
    s.serveReads = s.xqueue .fill (a / 32 * 32) s.xwSlot := by
  rw [State.serveReads, h]
  simp [State.each, hl, hf]

end Reads

end Sys2Proof.Machine
end

section
/-! PROOF. The mapped window (R499, R500, R502, R503). -/
namespace Sys2Proof.Machine

section Window
variable {s : State} {o : BitVec 28}

/-- A read where no page is buffered and no other read waits (R500, R502). -/
theorem exec_windowRead_waits (he : s.xwen = true) (hw : s.mem.wpage = none) (hr : s.mem.readWait = []) :
    exec (.windowRead o) s =
      .next (State.serveReads { s with mem := { s.mem with readWait := [s.extOf o.toNat] } }) := by
  refine congrArg Host.Outcome.next ?_
  unfold State.windowRead
  simp [he, hw, State.modMem, hr]

/-- A byte stored in the buffered page, or where no page is buffered (R502). -/
theorem exec_windowStore_byte (he : s.xwen = true) (v : Byte)
    (hw : s.mem.wpage = none ∨ s.mem.wpage = some (s.extOf o.toNat / s.xpage * s.xpage)) : exec (.windowStore o [v]) s =
      .next (s.modMem fun m => { m with
        wpage := some (s.extOf o.toNat / s.xpage * s.xpage),
        wbuf := cellSet 0xff (s.extOf o.toNat - s.extOf o.toNat / s.xpage * s.xpage) v m.wbuf }) := by
  refine congrArg Host.Outcome.next ((if_pos he).trans ?_)
  change s.storeByte o.toNat v = _
  rw [State.storeByte]
  simp only [if_pos hw]

end Window

/-- The part of O29 about the mapped window holds. -/
theorem mappedWindow : MappedWindow := by
  unfold MappedWindow
  intro s o a page
  refine ⟨fun he => ?_, fun he l => ?_, fun l he hw hr hl => ?_, fun he hw hr hl hf => ?_, fun v he hw => ?_,
    fun p hp ho => ?_, fun p hp ho hr => ?_, fun hp => ?_⟩
  · exact congrArg Host.Outcome.next (if_pos (by rw [he]; rfl))
  · exact congrArg Host.Outcome.next (if_neg (by rw [he]; exact Bool.false_ne_true))
  · have served := State.serveReads_line (s := { s with mem := { s.mem with readWait := [a] } }) rfl hl
    refine (exec_windowRead_waits he hw hr).trans (congrArg Host.Outcome.next (served.trans ?_))
    rw [← hr]
    rfl
  · exact (exec_windowRead_waits he hw hr).trans (congrArg Host.Outcome.next (State.serveReads_fill rfl hl hf))
  · exact exec_windowStore_byte he v hw
  · exact ⟨_, s.flushOp p, congrArg Host.Outcome.next (State.flushBuffer_opens hp ho),
      rfl, rfl, rfl, rfl, rfl, rfl, rfl⟩
  · obtain ⟨set, frame⟩ := State.raise_raisedAt .memPort 1 { s with nodeP := s.operationParams, mem := { s.mem with
      wpage := none, wbuf := [], refused := true, xaddr := BitVec.ofNat 32 p } } (by decide) rfl
    refine ⟨_, congrArg Host.Outcome.next (State.flushBuffer_refuses hp ho hr), ⟨set, ?_⟩, ?_, ?_⟩
    · rw [frame.nodeP]
      exact frame.withPort
    · rw [frame.port]
    · rw [frame.port]
  · exact congrArg Host.Outcome.next (State.flushBuffer_empty hp)

end Sys2Proof.Machine
end

section
/-! PROOF. Polls, limits and point fetches (R203, R209, R497, R504). -/
namespace Sys2Proof.Machine

/-! ## Repetition -/

/-- A repetition whose passes do nothing. -/
theorem State.each_skips {α : Type} {f : α → State → State} {l : List α} (s : State)
    (h : ∀ a ∈ l, ∀ t, f a t = t) : s.each l f = s := by
  induction l with
  | nil => rfl
  | cons a r ih =>
    have head : f a s = s := h a List.mem_cons_self s
    exact (congrArg (fun t : State => t.each r f) head).trans (ih fun b hb => h b (List.mem_cons_of_mem a hb))

/-- A repetition in which one pass alone does something. -/
theorem State.each_only {α : Type} {f : α → State → State} {l : List α} {i : Nat} (s : State) (hi : i < l.length)
    (h : ∀ (j : Nat) (hj : j < l.length), j ≠ i → ∀ t, f l[j] t = t) : s.each l f = f l[i] s := by
  induction l generalizing i s with
  | nil => exact absurd hi (Nat.not_lt_zero i)
  | cons a r ih =>
    cases i with
    | zero =>
      refine State.each_skips (f a s) fun b hb => ?_
      obtain ⟨j, hj, rfl⟩ := List.mem_iff_getElem.mp hb
      exact h (j + 1) (Nat.succ_lt_succ hj) (Nat.succ_ne_zero j)
    | succ i =>
      have head : f a s = s := h 0 (Nat.zero_lt_succ _) (Nat.succ_ne_zero i).symm s
      exact (congrArg (fun t : State => t.each r f) head).trans (ih s (Nat.lt_of_succ_lt_succ hi) fun j hj hne =>
        h (j + 1) (Nat.succ_lt_succ hj) fun e => hne (Nat.succ.inj e))

/-! ## Polls (R504) -/

/-- t is s with more requests behind those that wait. -/
def State.Queues (s t : State) : Prop :=
  t = { s with mem := { s.mem with waiting := t.mem.waiting } } ∧ ∀ r ∈ s.mem.waiting, r ∈ t.mem.waiting

/-- A poll of a slot waits or runs. -/
def State.Polled (c : BitVec 2) (s : State) : Prop := ∃ r ∈ s.mem.cur.toList ++ s.mem.waiting, r.kind = .poll c

/-- A poll of a slot that is due: the slot is busy and has none (R504). -/
def State.pollSlot (c : BitVec 2) (s : State) : State :=
  let out := (s.mem.cur.toList ++ s.mem.waiting).any fun r => decide (r.kind = .poll c)
  if s.mem.busy[c.toNat].isSome ∧ ¬ out then s.xqueue (.poll c) 0 c else s

theorem State.statusPoll_slots (s : State) : s.statusPoll = s.each [0, 1, 2, 3] State.pollSlot := rfl

section Polls
variable {s t u : State} {c : BitVec 2}

theorem State.Queues.refl (s : State) : s.Queues s := ⟨rfl, fun _ h => h⟩

theorem State.Queues.trans (h : s.Queues t) (k : t.Queues u) : s.Queues u := by
  obtain ⟨frame, kept⟩ := h
  obtain ⟨frame', kept'⟩ := k
  rw [frame] at frame'
  exact ⟨frame', fun r hr => kept' r (kept r hr)⟩

theorem State.Queues.busy (h : s.Queues t) : t.mem.busy = s.mem.busy := by
  rw [h.1]

/-- A poll that waits or runs still does behind more requests. -/
theorem State.Queues.polled (h : s.Queues t) (hs : s.Polled c) : t.Polled c := by
  obtain ⟨frame, kept⟩ := h
  obtain ⟨r, hr, kind⟩ := hs
  have cur : t.mem.cur = s.mem.cur := by rw [frame]
  refine ⟨r, ?_, kind⟩
  rw [cur]
  exact List.mem_append.mpr ((List.mem_append.mp hr).imp_right (kept r))

theorem State.pollSlot_queues (c : BitVec 2) (s : State) : s.Queues (s.pollSlot c) := by
  unfold State.pollSlot
  extract_lets out
  split
  · exact ⟨rfl, fun r hr => List.mem_append_left _ hr⟩
  · exact .refl s

theorem State.pollSlot_polled (h : s.mem.busy[c.toNat].isSome = true) : (s.pollSlot c).Polled c := by
  unfold State.pollSlot
  extract_lets out
  by_cases hout : out = true
  · rw [if_neg fun due => due.2 hout]
    obtain ⟨r, hr, kind⟩ := List.any_eq_true.mp hout
    exact ⟨r, hr, of_decide_eq_true kind⟩
  · rw [if_pos ⟨h, hout⟩]
    exact ⟨⟨.poll c, 0, c⟩, List.mem_append_right _ (List.mem_append_right _ List.mem_cons_self), rfl⟩

/-- After polls of some slots, each of them that is busy has one. -/
theorem State.each_pollSlot (l : List (BitVec 2)) (s : State) : s.Queues (s.each l State.pollSlot) ∧
    ∀ c ∈ l, s.mem.busy[c.toNat].isSome = true → (s.each l State.pollSlot).Polled c := by
  induction l generalizing s with
  | nil => exact ⟨.refl s, nofun⟩
  | cons a r ih =>
    have first := s.pollSlot_queues a
    obtain ⟨rest, polled⟩ := ih (s.pollSlot a)
    refine ⟨first.trans rest, fun c hc hb => ?_⟩
    rcases List.mem_cons.mp hc with rfl | hc
    · exact rest.polled (State.pollSlot_polled hb)
    · exact polled c hc (by simp only [first.busy]; exact hb)

end Polls

/-- Every slot is polled. -/
theorem mem_slots (c : BitVec 2) : c ∈ ([0, 1, 2, 3] : List (BitVec 2)) := by
  revert c
  decide

/-! ## Limits (R504, R506) -/

/-- What the limits do to a slot: an operation past its own times out (R504). -/
def State.judgeLimit (b : Option ProgOp) (s : State) : State :=
  match b with
  | some p => if s.opLimit p ≤ p.t then s.opTimeout p else s
  | none => s

theorem exec_operationTimeout (s : State) :
    exec .operationTimeout s = .next (s.each s.mem.busy.toList State.judgeLimit) := rfl

/-- The places of the busy operations are the slots. -/
theorem exists_slot {j : Nat} (h : j < 4) : ∃ c : BitVec 2, c.toNat = j := ⟨BitVec.ofNat 2 j, Nat.mod_eq_of_lt h⟩

section Limits
variable {s : State} {o : ProgOp}

/-- A place of the list whose slot is not busy has no limit to judge (R504). -/
theorem State.judgeLimit_free {j : Nat} (hj : j < s.mem.busy.toList.length)
    (hn : ∀ c : BitVec 2, c.toNat = j → s.mem.busy[c.toNat] = none) (t : State) :
    t.judgeLimit s.mem.busy.toList[j] = t := by
  obtain ⟨c, rfl⟩ := exists_slot (j := j) (by simpa using hj)
  rw [Vector.getElem_toList, hn c rfl]
  rfl

theorem exec_operationTimeout_idle (h : ∀ c : BitVec 2, s.mem.busy[c.toNat] = none) :
    exec .operationTimeout s = .next s := by
  refine (exec_operationTimeout s).trans (congrArg Host.Outcome.next (State.each_skips s fun b hb => ?_))
  obtain ⟨j, hj, rfl⟩ := List.mem_iff_getElem.mp hb
  exact State.judgeLimit_free hj fun c _ => h c

/-- The one slot that is busy is past its limit: its operation times out (R504). -/
theorem exec_operationTimeout_one (ho : s.mem.busy[o.slot.toNat] = some o)
    (hn : ∀ c : BitVec 2, c ≠ o.slot → s.mem.busy[c.toNat] = none) (ht : s.opLimit o ≤ o.t) :
    exec .operationTimeout s = .next (s.opTimeout o) := by
  have here : o.slot.toNat < s.mem.busy.toList.length := by simpa using o.slot.isLt
  have only := State.each_only s here fun j hj hne =>
    State.judgeLimit_free hj fun c hc => hn c fun e => hne (hc ▸ e ▸ rfl)
  rw [exec_operationTimeout, only, Vector.getElem_toList, ho]
  exact congrArg Host.Outcome.next (if_pos ht)

/-- Where no program or erase runs, none goes on. -/
theorem State.runsGo_idle (h : s.mem.runs = []) : s.runsGo = s := by
  rw [State.runsGo, State.advanceRuns, h]

/-- What a timeout writes in the port before its fault is raised (R504). -/
def MemPort.timedOut (o : ProgOp) (m : MemPort) : MemPort :=
  { m.release o.slot with polls := BitVec.ofNat 8 (min 255 o.polls), xaddr := BitVec.ofNat 32 o.addr }

/-- Of an operation that no command runs, with no run and no read behind it, only the fault is left to tell (R504). -/
theorem State.opTimeout_raises (hm : o.mb = none) (hr : s.mem.runs = []) (hw : s.mem.readWait = []) :
    s.opTimeout o = State.raise .memPort 0 (s.modMem (MemPort.timedOut o)) := by
  have runs := State.raise_noRuns .memPort 0 (s.modMem (MemPort.timedOut o)) hr
  have port := (State.raise_frame .memPort 0 (s.modMem (MemPort.timedOut o))).port
  unfold State.opTimeout
  rw [hm]
  exact (congrArg State.serveReads (State.runsGo_idle runs)).trans
    (State.serveReads_none ((congrArg MemPort.readWait port).trans hw))

end Limits

/-! ## Point fetches (R203, R209, R497) -/

section Fetch
variable {s : State} {n : AxisId} {f : Feed}

/-- A fetch that does not pass the last external address, while no page is buffered (R209, R499). -/
theorem exec_streamFetch_due {k : Nat} (hk : s.axes[n].str.fetchDue (s.followCfg n).squota = some k)
    (hf : s.axes[n].str.feed = some f) (hr : f.retry = false) (hw : s.mem.wpage = none)
    (ha : s.feedAddr f + 8 * k ≤ 4294967296) : exec (.streamFetch n) s =
      .next ((s.xqueue (.fetch n k) (s.feedAddr f) s.xwSlot).modAxis n fun x =>
        { x with str := { x.str with feed := some { f with busy := true, retry := false } } }) := by
  have whole : min k ((4294967296 - s.feedAddr f) / 8) = k := by omega
  have again : (s.axes[n].str.feed.map fun f => f.retry) ≠ some true := by
    rw [hf]
    simp [hr]
  refine congrArg Host.Outcome.next ((if_neg again).trans ?_)
  unfold State.requestFetch
  rw [hk, hf]
  simp only [whole, hw, Nat.lt_irrefl, if_false, Bool.false_eq_true]

theorem exec_streamFetch_idle (h : s.axes[n].str.fetchDue (s.followCfg n).squota = none) :
    exec (.streamFetch n) s = .next s := by
  have idle : s.requestFetch n = s := by rw [State.requestFetch, h]
  refine congrArg Host.Outcome.next ?_
  rw [idle, ite_self]

/-- The port without the requests of a stream's fetch (R209). -/
def MemPort.unasked (n : AxisId) (m : MemPort) : MemPort :=
  { m with waiting := m.waiting.filter fun r => match r.kind with
      | .fetch k _ => decide (k ≠ n)
      | _ => true }

theorem MemPort.unasked_waits (n : AxisId) (m : MemPort) : (m.unasked n).fetchWaits n = false := by
  unfold MemPort.fetchWaits MemPort.unasked
  refine List.any_eq_false.mpr fun r hr => ?_
  obtain ⟨-, other⟩ := List.mem_filter.mp hr
  obtain ⟨kind, addr, slot⟩ := r
  cases kind with
  | fetch k p => simpa using other
  | _ => exact Bool.false_ne_true

/-- A stream whose fetch failed: it is tried again (R209). -/
def Axis.retries (a : Axis) : Axis :=
  { a with str := { a.str with feed := a.str.feed.map fun f => { f with busy := false, retry := true } } }

/-- A fetch that waits leaves the queue, and its failure is told (R209). -/
theorem exec_fetchFail_raises (h : s.mem.fetchWaits n = true) : exec (.fetchFail n) s =
    .next (((s.modMem (MemPort.unasked n)).modAxis n Axis.retries).raise (.stream n) 6) :=
  congrArg Host.Outcome.next (if_pos h)

end Fetch

/-- The part of O29 about polls, limits and point fetches holds. -/
theorem pollsAndFetches : PollsAndFetches := by
  unfold PollsAndFetches
  intro s
  refine ⟨?_, fun o ho hn ht hm hr hw => ?_, exec_operationTimeout_idle, fun n k f hk hf hr hw ha => ?_,
    fun n h => exec_streamFetch_idle h, fun n f hw hf => ?_⟩
  · obtain ⟨⟨frame, kept⟩, polled⟩ := State.each_pollSlot [0, 1, 2, 3] s
    exact ⟨s.statusPoll, rfl, frame, kept, fun c hb => polled c (mem_slots c) hb⟩
  · have run := (exec_operationTimeout_one ho hn ht).trans (congrArg _ (State.opTimeout_raises hm hr hw))
    obtain ⟨set, frame⟩ := State.raise_raisedAt .memPort 0 (s.modMem (MemPort.timedOut o)) (by decide) rfl
    have port := frame.port
    refine ⟨_, run, ⟨set, frame.withPort⟩, ?_, ?_, ?_⟩ <;> rw [port]
    · exact Vector.getElem_set_self ..
    · rfl
    · rfl
  · exact exec_streamFetch_due hk hf hr hw ha
  · obtain ⟨set, frame⟩ := State.raise_raisedAt (.stream n) 6 ((s.modMem (MemPort.unasked n)).modAxis n Axis.retries)
      (by decide) rfl
    refine ⟨_, exec_fetchFail_raises hw, ⟨set, frame.withPort.withAxes⟩, ?_, ?_⟩
    · rw [frame.port]
      exact MemPort.unasked_waits n s.mem
    · rw [State.raise_str, State.modAxis_same]
      exact congrArg (Option.map _) hf

end Sys2Proof.Machine
end

section
/-! PROOF. Transfers (R490, R492, R495, R497, R501, R503), and one that ends in a debug halt (R120). -/
namespace Sys2Proof.Machine

/-! ## Choosing and starting a transfer (R497, R501) -/

section Start
variable {s : State} {r : XReq}

/-- The request that starts next waits, and may go to its slot (R497). -/
theorem MemPort.choose_some {m : MemPort} (h : m.choose = some r) : r ∈ m.waiting ∧ m.free r = true := by
  obtain ⟨p, -, found⟩ := List.exists_of_findSome?_eq_some h
  exact List.mem_filter.mp (List.mem_of_find?_eq_some found)

theorem State.transferStart_none (h : s.mem.cur ≠ none ∨ s.mem.choose = none) : s.transferStart = s := by
  unfold State.transferStart
  rcases h with runs | nothing
  · rw [if_pos (Option.isSome_iff_ne_none.mpr runs)]
  · rw [nothing, ite_self]

/-- The request leaves the queue before the parameters of its frame come into force (R501). -/
def State.taken (r : XReq) (s : State) : State := s.modMem fun m => { m with cur := some r, waiting := m.waiting.erase r }

theorem State.transferStart_some (hc : s.mem.cur = none) (h : s.mem.choose = some r) : ∃ held, s.transferStart =
    (s.taken r).applyFrame.modMem fun m => { m with frame := some ((s.taken r).applyFrame.frameOf r), csHeld := held } := by
  unfold State.transferStart
  rw [hc, h]
  exact ⟨_, rfl⟩

theorem State.startOp_cur (o : ProgOp) (s : State) : (s.startOp o).1.mem.cur = s.mem.cur := by
  unfold State.startOp
  simp only
  split
  · rfl
  · exact (congrArg MemPort.cur (State.raiseIf_frame _ _ _ _).port).trans rfl

theorem State.flushBuffer_cur (s : State) : s.flushBuffer.mem.cur = s.mem.cur := by
  cases h : s.mem.wpage with
  | none => rw [State.flushBuffer_empty h]
  | some p => rw [State.flushBuffer_page h, State.startOp_cur]

/-- The FRAME boundary leaves the transfer that starts (R501). -/
theorem State.applyFrame_cur (s : State) : s.applyFrame.mem.cur = s.mem.cur := by
  unfold State.applyFrame
  extract_lets named moved lines s1 s2
  have first : s1.mem.cur = s.mem.cur := by
    by_cases h : moved = true
    · exact (congrArg (fun t : State => t.mem.cur) (if_pos h)).trans s.flushBuffer_cur
    · exact congrArg (fun t : State => t.mem.cur) (if_neg h)
  cases lines <;> exact first

/-- With no page buffered, the FRAME boundary applies staged parameters and may drop the lines (R500, R501). -/
theorem State.applyFrame_frame (h : s.mem.wpage = none) : ∃ (p : Params) (l : List (Nat × List Byte)),
    s.applyFrame = { s with nodeP := p, mem := { s.mem with lines := l } } ∧ p.staged = s.nodeP.staged := by
  unfold State.applyFrame
  rw [State.flushBuffer_empty h]
  extract_lets named moved lines s1 s2
  have unmoved : s1 = s := ite_self s
  have applied : s2 = { s with nodeP := s2.nodeP } := by
    simp only [s2, unmoved]
  have staged : s2.nodeP.staged = s.nodeP.staged := by
    simp only [s2, unmoved]
    rfl
  rw [applied]
  cases lines
  · exact ⟨_, s.mem.lines, rfl, staged⟩
  · exact ⟨_, [], rfl, staged⟩

/-- The request chosen runs, as the frame then in force sends it (R497, R501). -/
theorem State.transferStart_runs (hc : s.mem.cur = none) (h : s.mem.choose = some r) :
    s.transferStart.mem.cur = some r ∧ r ∈ s.mem.waiting ∧ s.mem.free r = true ∧
      s.transferStart.mem.frame.isSome = true := by
  obtain ⟨held, started⟩ := State.transferStart_some hc h
  obtain ⟨waits, free⟩ := MemPort.choose_some h
  rw [started]
  exact ⟨(s.taken r).applyFrame_cur, waits, free, rfl⟩

/-- With no page buffered, the request chosen leaves the queue and runs, in the frame of the parameters then in force
(R497, R501). -/
theorem State.transferStart_frame (hc : s.mem.cur = none) (h : s.mem.choose = some r) (hw : s.mem.wpage = none) :
    let u := s.transferStart
    u = { s with mem := u.mem, nodeP := u.nodeP } ∧ u.mem.waiting = s.mem.waiting.erase r ∧
      u.nodeP.staged = s.nodeP.staged ∧ u.mem.frame = some (u.frameOf r) := by
  obtain ⟨held, started⟩ := State.transferStart_some hc h
  obtain ⟨p, l, applied, staged⟩ := State.applyFrame_frame (s := s.taken r) hw
  rw [started, applied]
  exact ⟨rfl, rfl, staged, rfl⟩

end Start

/-! ## The end of a transfer (R490, R492, R495, R497, R503) -/

section End
variable {s : State} {addr : Nat} {slot : BitVec 2} {rx : List Byte} {holds : Half} {v : Bool}

/-- The port with no transfer under way, after one with these holds (R490, R492). -/
def MemPort.rested (holds : Half) (m : MemPort) : MemPort :=
  { m with cur := none, frame := none, csHeld := 0, xholds := m.xholds + holds.setWidth 32 }

/-- A transfer of n bytes is over; what it was for is not served yet. -/
def State.rested (holds : Half) (n : Nat) (s : State) : State := (s.modMem (MemPort.rested holds)).countBytes 1 n

theorem State.rested_frame (holds : Half) (n : Nat) (s : State) : ∃ count, s.rested holds n =
    { s with mem := s.mem.rested holds, perf := { s.perf with count := count } } := by
  unfold State.rested State.countBytes
  split
  · exact ⟨_, rfl⟩
  · exact ⟨s.perf.count, rfl⟩

theorem exec_transferEnd_none (h : s.mem.cur = none) : exec (.transferEnd rx holds v) s = .next s := by
  change execTransferEnd rx holds v s = _
  rw [execTransferEnd, State.transferEnd, h]

theorem exec_transferEnd_serves {r : XReq} (h : s.mem.cur = some r) : exec (.transferEnd rx holds v) s =
    .next (((s.rested holds r.kind.bytes).serve r rx holds v).fwFetchEnd r) := by
  change execTransferEnd rx holds v s = _
  rw [execTransferEnd, State.transferEnd, h]
  rfl

/-- A write-enable is followed by its program (R503). -/
theorem exec_transferEnd_wren {o : ProgOp} (h : s.mem.cur = some ⟨.wren o, addr, slot⟩) :
    exec (.transferEnd rx holds v) s = .next ((s.rested holds 0).xqueue (.prog o) o.addr o.slot) :=
  exec_transferEnd_serves h

/-- A program makes its slot busy (R503, R504). -/
theorem exec_transferEnd_prog {o : ProgOp} (h : s.mem.cur = some ⟨.prog o, addr, slot⟩) :
    exec (.transferEnd rx holds v) s = .next ((s.rested holds o.data.length).modMem fun m =>
      { m with busy := m.busy.set o.slot.toNat (some o) }) :=
  exec_transferEnd_serves h

/-- A fill that no read waits for enters the line buffer (R500). -/
theorem exec_transferEnd_fill (h : s.mem.cur = some ⟨.fill, addr, slot⟩) (hr : s.mem.readWait = []) :
    exec (.transferEnd rx holds v) s = .next ((s.rested holds 32).modMem fun m =>
      { m with lines := ((addr, (List.range 32).map fun i => rx.getD i 0) :: m.lines).take 16 }) := by
  obtain ⟨count, rested⟩ := s.rested_frame holds 32
  have idle : (s.rested holds 32).mem.readWait = [] := by
    rw [rested]
    exact hr
  exact (exec_transferEnd_serves h).trans (congrArg Host.Outcome.next (State.serveReads_none idle))

/-- The state that a raw read leaves before its command ends: its bytes are in the transfer buffer (R495). -/
def State.rawReadIn (boff xlen : Nat) (rx : List Byte) (holds : Half) (s : State) : State :=
  (s.rested holds ((xlen + 7) / 8)).modMem (MemPort.rawRead boff xlen rx)

theorem State.rawReadIn_keeps (boff xlen : Nat) (rx : List Byte) (holds : Half) (s : State) :
    let t := s.rawReadIn boff xlen rx holds
    t.mbx = s.mbx ∧ t.debugHalted = s.debugHalted ∧ t.axes = s.axes ∧
      t.mem = (s.mem.rested holds).rawRead boff xlen rx := by
  obtain ⟨count, rested⟩ := s.rested_frame holds ((xlen + 7) / 8)
  rw [State.rawReadIn, rested]
  exact ⟨rfl, rfl, rfl, rfl⟩

section Raw
variable {m : MbId} {fmt : Word} {boff xlen : Nat}

/-- A command that does not end now keeps its end through the settling of the others (R115, R120). -/
theorem State.settle_complete_held {u : State} (hu : u.mbx = s.mbx) (hr : s.noReset = true) (he : u.endsNow m = false)
    (hp : u.mbx[m].phase ≠ .idle) (st : BitVec 2) (ws : List Word) :
    (u.complete m st ws).settle.mbx[m] = { s.mbx[m] with phase := .ended st ws } := by
  have self : (u.complete m st ws).mbx[m] = { s.mbx[m] with phase := .ended st ws } := by
    rw [State.complete_held he hp, State.modMb_same, hu]
  obtain ⟨-, other⟩ := State.settle_beside (State.complete_noReset hu hr m st ws)
  exact (other m (by rw [self]; exact nofun)).trans self

/-- A waiting command ends at once unless the processor is in a debug halt (R120). -/
theorem State.endsNow_waiting {w : Wait} (h : s.mbx[m].phase = .waiting w) : s.endsNow m = !s.debugHalted := by
  have taken : s.mbx[m].taken = true := by rw [Mailbox.taken, h]
  rw [State.endsNow, h, taken, Bool.and_true]
  rfl

/-- The end of a raw read ends the command that waits for it (R495). -/
theorem exec_transferEnd_raw (h : s.mem.cur = some ⟨.raw m fmt boff xlen, addr, slot⟩) (hf : fmt.getLsbD 4 = false)
    (hp : s.mbx[m].phase = .waiting .xfer) : exec (.transferEnd rx holds v) s =
      .next ((s.rawReadIn boff xlen rx holds).done m [0#16 ++ holds]).settle := by
  obtain ⟨mail, -⟩ := s.rawReadIn_keeps boff xlen rx holds
  have waits : (s.rawReadIn boff xlen rx holds).waitsFor m .xfer = true := by
    rw [State.waitsFor, mail]
    exact decide_eq_true hp
  refine (exec_transferEnd_serves h).trans (congrArg Host.Outcome.next ?_)
  simp only [State.serve, hf, State.fwFetchEnd, Bool.false_eq_true, if_false]
  exact if_pos waits

variable (h : s.mem.cur = some ⟨.raw m fmt boff xlen, addr, slot⟩) (hf : fmt.getLsbD 4 = false)
  (hp : s.mbx[m].phase = .waiting .xfer) (hr : s.noReset = true)
include h hf hp hr

/-- While the processor is not in a debug halt, the command of a raw read completes with its holds (R492, R495). -/
theorem exec_transferEnd_raw_completes (hd : s.debugHalted = false) : ∃ u, exec (.transferEnd rx holds v) s = .next u ∧
    u.mbx[m] = s.mbx[m].finish 2 [0#16 ++ holds] ∧ u.mem.cur = none ∧
    u.mem.xbuf = (s.mem.rawRead boff xlen rx).xbuf ∧ u.axes = s.axes := by
  obtain ⟨mail, halt, axes, port⟩ := s.rawReadIn_keeps boff xlen rx holds
  have now : (s.rawReadIn boff xlen rx holds).endsNow m = true := by
    rw [State.endsNow_waiting (w := .xfer) (by rw [mail, hp]), halt, hd]
    rfl
  obtain ⟨self, frame, -⟩ := State.settle_complete mail hr now 2 [0#16 ++ holds]
  refine ⟨_, exec_transferEnd_raw h hf hp, self, ?_⟩
  unfold State.done
  rw [frame]
  exact ⟨congrArg MemPort.cur port, (congrArg MemPort.xbuf port).trans rfl, axes⟩

/-- In a debug halt, the command of a raw read keeps its end until the processor runs again (R120). -/
theorem exec_transferEnd_raw_held (hd : s.debugHalted = true) : ∃ u, exec (.transferEnd rx holds v) s = .next u ∧
    u.mbx[m] = { s.mbx[m] with phase := .ended 2 [0#16 ++ holds] } := by
  obtain ⟨mail, halt, -⟩ := s.rawReadIn_keeps boff xlen rx holds
  have waits : (s.rawReadIn boff xlen rx holds).mbx[m].phase = .waiting .xfer := by rw [mail, hp]
  have late : (s.rawReadIn boff xlen rx holds).endsNow m = false := by
    rw [State.endsNow_waiting waits, halt, hd]
    rfl
  exact ⟨_, exec_transferEnd_raw h hf hp, State.settle_complete_held mail hr late (by rw [waits]; exact nofun) 2 _⟩

end Raw

end End

/-! ## A transfer that ends in a debug halt -/

/-- Mailbox 0 waits for its raw read of one byte, and the processor is in a debug halt. -/
def haltedRead : State :=
  State.modMb 0 (fun x => { x with phase := .waiting .xfer })
    { State.reset with boot := 3, mem := { cur := some ⟨.raw 0 0 0 8, 0, 0⟩ } }

theorem haltedRead_waits : haltedRead.mem.cur = some ⟨.raw 0 0 0 8, 0, 0⟩ ∧
    haltedRead.mbx[(0 : MbId)].phase = .waiting .xfer ∧ haltedRead.noReset = true ∧ haltedRead.debugHalted = true := by
  decide

/-- The part of O29 about transfers fails in `haltedRead`: the command does not complete with its transfer. Its other clauses
are the lemmas above, with `exec_transferEnd_raw_completes` for a processor that is not in a debug halt. -/
theorem not_transfersRun : ¬ TransfersRun := by
  unfold TransfersRun
  intro run
  obtain ⟨cur, waits, quiet, halted⟩ := haltedRead_waits
  obtain ⟨-, -, -, -, -, -, raw, -⟩ := run haltedRead 0 0 [] 0 true
  obtain ⟨u, ends, completes, -⟩ := raw 0 0 0 8 cur rfl waits quiet
  obtain ⟨w, keeps, held⟩ := exec_transferEnd_raw_held (rx := []) (holds := 0) (v := true) cur rfl waits quiet halted
  have same : u = w := Host.Outcome.next.inj (ends.symm.trans keeps)
  have phase := congrArg Mailbox.phase (completes.symm.trans (same ▸ held))
  rw [Mailbox.finish_phase] at phase
  exact nomatch phase

/-- Refutes O29: a raw read that ends in a debug halt does not complete its command, which keeps its end until the
processor runs again (R120). -/
theorem not_memoryEvents : ¬ Obligations.MemoryEvents := fun h => not_transfersRun h.2.1

end Sys2Proof.Machine
end

section
/-! PROOF. Budgets scaled to the allocation (R242). -/
namespace Sys2Proof.Machine

/-- Beyond the allocation a budget is scaled by allocation over sum, which is never more than itself (R242). -/
theorem budgetTarget_scaled {ialloc sum : Nat} (h : ialloc < sum) (b : Nat) :
    budgetTarget ialloc sum b = b * ialloc / sum := by
  have below : b * ialloc / sum ≤ b := Nat.div_le_of_le_mul <|
    calc b * ialloc ≤ b * sum := Nat.mul_le_mul_left b (Nat.le_of_lt h)
      _ = sum * b := Nat.mul_comm b sum
  rw [budgetTarget, if_pos h, Nat.min_eq_right below]

/-- Within the allocation each axis has its own budget (R242). -/
theorem budgetTarget_own {ialloc sum : Nat} (h : sum ≤ ialloc) (b : Nat) : budgetTarget ialloc sum b = b :=
  if_neg (Nat.not_lt.mpr h)

/-- Shares that are each rounded down sum to no more than the share of the sum. -/
theorem sum_scaled_le (k d : Nat) : ∀ l : List Nat, (l.map fun b => b * k / d).sum ≤ l.sum * k / d
  | [] => Nat.zero_le _
  | b :: l => by
    simp only [List.map_cons, List.sum_cons]
    calc b * k / d + (l.map fun b => b * k / d).sum
        ≤ b * k / d + l.sum * k / d := Nat.add_le_add_left (sum_scaled_le k d l) _
      _ ≤ (b * k + l.sum * k) / d := Nat.div_add_div_le_add_div
      _ = (b + l.sum) * k / d := by rw [Nat.add_mul]

/-- Settles O60: each scaled budget is rounded down, so their sum is at most the share of the whole sum, the allocation. -/
theorem budgetsFit : Obligations.BudgetsFit := by
  unfold Obligations.BudgetsFit
  intro ialloc l
  refine ⟨fun beyond => ⟨?_, fun b _ => budgetTarget_scaled beyond b⟩, fun within => ?_⟩
  · rw [funext (budgetTarget_scaled beyond)]
    calc (l.map fun b => b * ialloc / l.sum).sum
        ≤ l.sum * ialloc / l.sum := sum_scaled_le ialloc l.sum l
      _ ≤ ialloc := Nat.div_le_of_le_mul (Nat.le_refl _)
  · rw [funext (budgetTarget_own within)]
    exact List.map_id' l

end Sys2Proof.Machine
end

section
/-! PROOF. The timed events of an axis (R235, R245, R290, R358). -/
namespace Sys2Proof.Machine

/-- The emptied I²t account and the blind run are told at the axis: both bits are sources of its block (R245, R290). -/
theorem State.raise_axis_raisedAt (s : State) (n : AxisId) {bit : Nat} (h : bit = 15 ∨ bit = 20) :
    s.RaisedAt (.axis n) bit (s.raise (.axis n) bit) := by
  rcases h with rfl | rfl
  · exact State.raise_raisedAt _ _ s (by decide) rfl
  · exact State.raise_raisedAt _ _ s (by decide) rfl

/-- The timed events of an axis, each by whether it is due. -/
theorem axisTimers : AxisTimers := by
  unfold AxisTimers
  intro s n a held lim
  refine ⟨fun h => if_pos h, fun h => if_neg h, fun due => ?_, fun due => ?_, fun lock full => if_pos ⟨lock, full⟩,
    fun long link => if_pos ⟨long, link⟩, fun short => if_neg fun h => Nat.not_le.mpr short h.1,
    fun on long up => ?_, fun idle => if_neg fun h => ?_⟩
  · exact ⟨_, if_pos due, State.raise_axis_raisedAt _ n (.inl rfl)⟩
  · exact if_neg (Bool.eq_false_iff.mp due)
  · exact ⟨_, if_pos ⟨on, long, up⟩, State.raise_axis_raisedAt _ n (.inr rfl)⟩
  · obtain ⟨on, -, up⟩ := h
    exact idle.elim on fun told => Bool.eq_false_iff.mp up told

end Sys2Proof.Machine
end

section
/-! PROOF. The backoff of homing and the refresh of the harmonic copies (R232, R292, R293). -/
namespace Sys2Proof.Machine

/-! ## Whole electrical cycles (R30, R159, R161) -/

/-- Whole electrical cycles leave the angle as it is (R159). -/
theorem angleOf_add_cycles (p k : Int) : angleOf (p + 4096 * k * 4294967296) = angleOf p := by
  have quotient : (p + 4096 * k * 4294967296).fdiv 4096 = p.fdiv 4096 + 4294967296 * k := by
    have reordered : p + 4096 * k * 4294967296 = p + 4294967296 * k * 4096 := by omega
    rw [reordered, Int.add_mul_fdiv_right _ _ (by decide)]
  apply BitVec.eq_of_toNat_eq
  simp only [angleOf, quotient, BitVec.toNat_ofInt]
  exact congrArg Int.toNat (Int.add_mul_emod_self_left _ _ _)

/-- The 48-bit range is made of whole electrical cycles: a wrapped position has the angle of the position itself (R161). -/
theorem angleOf_wrapPos (p : Int) : angleOf (wrapPos p) = angleOf p := by
  have wraps : wrapPos p = p + 4096 * (68719476736 *
      -(p + 140737488355328 * oneStep).fdiv (281474976710656 * oneStep)) * 4294967296 := by
    have division := Int.mul_fdiv_add_fmod (p + 140737488355328 * oneStep) (281474976710656 * oneStep)
    unfold wrapPos oneStep at *
    omega
  rw [wraps, angleOf_add_cycles]

/-! ## The backoff of homing (R292, R293) -/

/-- Planning a move to a target leaves the position (R164). -/
theorem Engine.start_target_pos (c : AxisCfg) (x : Int) (o : Limits) (e : Engine) (h : e.st ≠ .standby) :
    (e.start c ⟨.target x, o⟩).pos = e.pos := by
  unfold Engine.start
  simp only
  rw [if_neg fun k => h k.1]
  rfl

/-- The corrected position of an axis that backs off: the whole cycles are added to it (R293). -/
theorem Axis.backoff_pos (c : AxisCfg) (hback : Int) (ang lam : Word) (a : Axis) (h : a.eng.st = .frozen) :
    (a.backoff c hback ang lam).eng.pos = wrapPos (a.eng.pos +
      4096 * cycleCorrection (homePos (unwrapAngle ang a.obn.hanchor) lam.toInt) a.obn.hfrozen a.obn.hup * 4294967296) := by
  unfold Axis.backoff
  exact Engine.start_target_pos c _ _ _ fun standby => nomatch h.symm.trans standby

/-- The BACKOFF edge: the read has returned and HOMING_BACKOFF came before it (R292, R293). -/
theorem State.contactStep_backoff {s : State} {n : AxisId} {ang lam : Word} (read : s.axes[n].obn.hread = some (ang, lam))
    (go : s.axes[n].obn.hgo = true) (frozen : s.axes[n].eng.st = .frozen) :
    s.contactStep n false = s.modAxis n (Axis.backoff (s.axisCfg n) (s.pA n.val 0x3602 0) ang lam) := by
  unfold State.contactStep
  simp only
  rw [if_neg fun h => h.elim nofun fun moves => moves frozen, go, read]

/-! ## The refresh of the harmonic copies (R232) -/

/-- The coefficients of every axis of a bank become due in its scan (R232). -/
def Bank.dueHarm (k : Bank) : Bank := { k with harmDue := 0xf }

/-- One bank of the refresh, which reaches it or passes it over (R116, R232). -/
def State.dueHarm (b : BankId) (s : State) : State := if s.linked b then s.modBank b Bank.dueHarm else s

theorem State.harmRefresh_due {s : State} (h : s.tick % 1024 = 0) : s.harmRefresh = s.each s.presentBanks State.dueHarm :=
  if_pos h

theorem State.dueHarm_frame (b : BankId) (s : State) : s.dueHarm b = { s with banks := (s.dueHarm b).banks } := by
  unfold State.dueHarm
  split <;> rfl

theorem State.dueHarm_other {b c : BankId} (h : b ≠ c) (s : State) : (s.dueHarm c).banks[b] = s.banks[b] := by
  unfold State.dueHarm
  split
  · exact State.modBank_other s _ h
  · rfl

theorem State.dueHarm_same (b : BankId) (s : State) :
    (s.dueHarm b).banks[b] = if s.linked b = true then s.banks[b].dueHarm else s.banks[b] := by
  unfold State.dueHarm
  split
  · exact State.modBank_same s b _
  · rfl

theorem State.linked_of_bank {s t : State} {b : BankId} (h : t.banks[b] = s.banks[b]) : t.linked b = s.linked b := by
  unfold State.linked
  rw [h]

/-- The refresh of a list of banks: a bank of the list has its coefficients due where the node reaches it. -/
theorem State.each_dueHarm (b : BankId) : ∀ (l : List BankId) (s : State), l.Nodup → (s.each l State.dueHarm).banks[b] =
    if b ∈ l ∧ s.linked b = true then s.banks[b].dueHarm else s.banks[b]
  | [], _, _ => (if_neg fun h => List.not_mem_nil h.1).symm
  | c :: l, s, h => by
    obtain ⟨fresh, rest⟩ := List.nodup_cons.mp h
    rw [State.each_cons, State.each_dueHarm b l _ rest]
    by_cases e : b = c
    · subst e
      rw [if_neg fun k => fresh k.1, State.dueHarm_same]
      simp only [List.mem_cons_self, true_and]
    · rw [State.dueHarm_other e, State.linked_of_bank (State.dueHarm_other e s)]
      simp only [List.mem_cons, e, false_or]

theorem State.mem_presentBanks (s : State) (b : BankId) : b ∈ s.presentBanks ↔ s.present b = true := by
  simp [State.presentBanks, allBanks]

/-- HARMONIC_COPY_REFRESH on its tick: the banks in reach (R232). -/
theorem State.harmRefresh_banks {s : State} (h : s.tick % 1024 = 0) (b : BankId) : s.harmRefresh.banks[b] =
    if s.present b = true ∧ s.linked b = true then s.banks[b].dueHarm else s.banks[b] := by
  have nodup : s.presentBanks.Nodup := (List.nodup_finRange 12).filter _
  rw [State.harmRefresh_due h, State.each_dueHarm b _ s nodup]
  simp only [State.mem_presentBanks]

theorem State.harmRefresh_frame {s : State} (h : s.tick % 1024 = 0) :
    s.harmRefresh = { s with banks := s.harmRefresh.banks } := by
  rw [State.harmRefresh_due h]
  exact State.each_keeps (fun t => t = { s with banks := t.banks }) _
    (fun b t ht => (State.dueHarm_frame b t).trans (by rw [ht])) _ s rfl

/-! ## The statement -/

/-- The backoff by its event and its edge, the refresh by its tick. -/
theorem homingAndHarmonics : HomingAndHarmonics := by
  unfold HomingAndHarmonics
  intro s
  refine ⟨fun n read contact wait frozen => congrArg Host.Outcome.next (if_pos ⟨read, contact, wait, frozen⟩),
    fun n ang lam read go frozen => ?_, fun n idle => congrArg Host.Outcome.next (if_neg fun h => ?_),
    fun due => ⟨_, rfl, State.harmRefresh_frame due, State.harmRefresh_banks due⟩,
    fun idle => congrArg Host.Outcome.next (if_neg idle)⟩
  · extract_lets home u
    have edge : u = s.modAxis n (Axis.backoff (s.axisCfg n) (s.pA n.val 0x3602 0) ang lam) :=
      State.contactStep_backoff read go frozen
    have self : u.axes[n] = s.axes[n].backoff (s.axisCfg n) (s.pA n.val 0x3602 0) ang lam := by
      rw [edge, State.modAxis_same]
    have pos := Axis.backoff_pos (s.axisCfg n) (s.pA n.val 0x3602 0) ang lam s.axes[n] frozen
    refine ⟨?_, fun k other => ?_, ?_, ?_, ?_⟩
    · rw [edge]
      rfl
    · rw [edge, State.modAxis_other s _ other]
    · rw [self]
      rfl
    · rw [self]
      exact pos
    · rw [self, pos, angleOf_wrapPos, angleOf_add_cycles]
  · obtain ⟨read, contact, -, frozen⟩ := h
    rcases idle with unread | moved | moved
    · rw [unread] at read
      exact nomatch read
    · exact moved contact
    · exact moved frozen

/-- Settles O40: the timed events by whether they are due, homing and the copies by what their edge leaves. -/
theorem axisEvents : Obligations.AxisEvents := ⟨axisTimers, homingAndHarmonics⟩

end Sys2Proof.Machine
end

section
/-! SUPPORT. Steps of one bank: what it tells, what its legs become and what they leave alone (R10, R332, R349, R353,
R357). -/
namespace Sys2Proof.Machine

/-! ## Places of axes (R10) -/

@[simp] theorem bankOf_axisAt (b : BankId) (p : Pos) : bankOf (axisAt b p) = b :=
  Fin.ext (show (4 * b.val + p.val) / 4 = b.val by omega)

@[simp] theorem axisAt_bankOf_posOf (n : AxisId) : axisAt (bankOf n) (posOf n) = n :=
  Fin.ext (Nat.div_add_mod n.val 4)

/-! ## What a bank tells (R332, R353) -/

theorem State.bankTell_axes (b : BankId) (e : BankEvent) (s : State) : (s.bankTell b e).axes = s.axes := rfl

theorem State.bankTell_same (b : BankId) (e : BankEvent) (s : State) : (s.bankTell b e).banks[b] =
    { s.banks[b] with events := s.banks[b].events ++ [e], flt := s.banks[b].flt ||| e.own b } :=
  State.modBank_same s b _

theorem State.bankTell_events (b : BankId) (e : BankEvent) (s : State) :
    (s.bankTell b e).banks[b].events = s.banks[b].events ++ [e] :=
  congrArg Bank.events (s.bankTell_same b e)

/-- What is no fault of the bank's own block leaves its status (R332). -/
theorem State.bankTell_foreign {b : BankId} {e : BankEvent} (h : e.own b = 0) (s : State) :
    (s.bankTell b e).banks[b] = { s.banks[b] with events := s.banks[b].events ++ [e] } := by
  have flt : s.banks[b].flt ||| e.own b = s.banks[b].flt := by rw [h]; exact BitVec.or_zero
  rw [State.bankTell_same, flt]

/-! ## Steps inside one bank -/

/-- t is s after steps of bank b: axes have changed, and of the banks b alone. -/
structure State.InBank (b : BankId) (s t : State) : Prop where
  frame : t = { s with axes := t.axes, banks := t.banks }
  others : ∀ k : BankId, k ≠ b → t.banks[k] = s.banks[k]

namespace State.InBank

variable {b : BankId} {s t u : State}

theorem refl (b : BankId) (s : State) : s.InBank b s := ⟨rfl, fun _ _ => rfl⟩

theorem trans (h : s.InBank b t) (k : t.InBank b u) : s.InBank b u where
  frame := by
    have e := k.frame
    rw [h.frame] at e
    exact e
  others c hc := (k.others c hc).trans (h.others c hc)

theorem modAxis (h : s.InBank b t) (n : AxisId) (f : Axis → Axis) : s.InBank b (t.modAxis n f) :=
  h.trans ⟨rfl, fun _ _ => rfl⟩

theorem modLegs (h : s.InBank b t) (n : AxisId) (f : LegsBank → LegsBank) : s.InBank b (t.modLegs n f) := h.modAxis n _

theorem modBank (h : s.InBank b t) (f : Bank → Bank) : s.InBank b (t.modBank b f) :=
  h.trans ⟨rfl, fun _ hc => t.modBank_other f hc⟩

theorem bankTell (h : s.InBank b t) (e : BankEvent) : s.InBank b (t.bankTell b e) := h.modBank _

theorem ite {c : Prop} [Decidable c] (ht : s.InBank b t) (hu : s.InBank b u) : s.InBank b (if c then t else u) := by
  split
  · exact ht
  · exact hu

end State.InBank

/-! ## Steps on one axis -/

/-- t is s after steps of the bank on axis n: of the axes n alone has changed, and not in its motion. -/
structure State.OnAxis (n : AxisId) (s t : State) : Prop extends s.InBank (bankOf n) t where
  axes : ∀ k : AxisId, k ≠ n → t.axes[k] = s.axes[k]
  eng : t.axes[n].eng = s.axes[n].eng

namespace State.OnAxis

variable {n : AxisId} {s t : State}

theorem refl (n : AxisId) (s : State) : s.OnAxis n s := ⟨.refl _ s, fun _ _ => rfl, rfl⟩

theorem modAxis (h : s.OnAxis n t) (f : Axis → Axis) (hf : ∀ a, (f a).eng = a.eng := by exact fun _ => rfl) :
    s.OnAxis n (t.modAxis n f) where
  toInBank := h.toInBank.modAxis n f
  axes k hk := (t.modAxis_other f hk).trans (h.axes k hk)
  eng := by rw [State.modAxis_same, hf, h.eng]

theorem modLegs (h : s.OnAxis n t) (f : LegsBank → LegsBank) : s.OnAxis n (t.modLegs n f) := h.modAxis _

theorem bankTell (h : s.OnAxis n t) (e : BankEvent) : s.OnAxis n (t.bankTell (bankOf n) e) :=
  ⟨h.toInBank.bankTell e, h.axes, h.eng⟩

theorem ite {c : Prop} [Decidable c] {u : State} (ht : s.OnAxis n t) (hu : s.OnAxis n u) :
    s.OnAxis n (if c then t else u) := by
  split
  · exact ht
  · exact hu

theorem afterStep2 (h : s.OnAxis n t) : s.OnAxis n (t.afterStep2 n) := .ite ((h.modLegs _).bankTell _) (h.modLegs _)

theorem toStep2 (h : s.OnAxis n t) : s.OnAxis n (t.toStep2 n) := (h.modLegs _).afterStep2

end State.OnAxis

theorem State.modLegs_same (n : AxisId) (f : LegsBank → LegsBank) (s : State) :
    (s.modLegs n f).axes[n] = { s.axes[n] with legs := f s.axes[n].legs } :=
  State.modAxis_same s n _

/-! ## Step 2 (R349, R357) -/

section Step2

variable {s : State} {n k : AxisId}

/-- Step 2 is reached: no release runs (R349). -/
def LegsBank.Off (l : LegsBank) : Prop := l.rel = .none ∧ l.step2 = true

theorem LegsBank.toStep2_off (l : LegsBank) : l.toStep2.Off := ⟨rfl, rfl⟩

/-- What follows step 2 concerns the retry alone (R357). -/
theorem LegsBank.afterStep2_keeps (auto : Bool) (limit : Nat) (l : LegsBank) :
    ∃ rpend waiting waitT, (l.afterStep2 auto limit).1 = { l with rpend, waiting, waitT } := by
  unfold LegsBank.afterStep2
  split
  · exact ⟨_, _, _, rfl⟩
  · split
    · exact ⟨_, _, _, rfl⟩
    · exact ⟨_, _, _, rfl⟩

theorem LegsBank.Off.afterStep2 {l : LegsBank} (h : l.Off) (auto : Bool) (limit : Nat) :
    (l.afterStep2 auto limit).1.Off := by
  obtain ⟨_, _, _, e⟩ := l.afterStep2_keeps auto limit
  rw [e]
  exact h

/-- A latched axis with retries left waits for the next one (R357). -/
theorem LegsBank.afterStep2_waits {l : LegsBank} {limit : Nat} (hl : l.latch = true) (ht : l.tries.toNat < limit) :
    l.afterStep2 true limit = ({ l with rpend := true, waiting := true, waitT := 0 }, false) := by
  simp [LegsBank.afterStep2, hl, ht]

/-- A latched axis without retries left is told of (R357). -/
theorem LegsBank.afterStep2_ends {l : LegsBank} {limit : Nat} (hl : l.latch = true) (ht : limit ≤ l.tries.toNat) :
    l.afterStep2 true limit = (l, true) := by
  simp [LegsBank.afterStep2, hl, Nat.not_lt.mpr ht]

/-- What the retries of an axis make of its legs after step 2 (R357). -/
def State.retried (n : AxisId) (s : State) : LegsBank × Bool :=
  s.axes[n].legs.afterStep2 s.part.retries (fieldN (s.bA (bankOf n).val 0x2101 0) 0 3)

theorem State.afterStep2_same (n : AxisId) (s : State) :
    (s.afterStep2 n).axes[n] = { s.axes[n] with legs := (s.retried n).1 } := by
  have legs := State.modLegs_same n (fun _ => (s.retried n).1) s
  unfold State.afterStep2
  extract_lets r s1
  split
  · exact legs
  · exact legs

theorem State.afterStep2_told (h : (s.retried n).2 = true) :
    (s.afterStep2 n).banks[bankOf n].events = s.banks[bankOf n].events ++ [.fault (.axis n) 26] := by
  have e : s.afterStep2 n = (s.modLegs n fun _ => (s.retried n).1).bankTell (bankOf n) (.fault (.axis n) 26) := if_pos h
  rw [e]
  exact State.bankTell_events ..

theorem State.toStep2_off (n : AxisId) (s : State) : (s.toStep2 n).axes[n].legs.Off := by
  have e : ((s.modLegs n LegsBank.toStep2).axes[n]).legs.Off := by
    rw [State.modLegs_same]
    exact s.axes[n].legs.toStep2_off
  unfold State.toStep2
  rw [State.afterStep2_same]
  exact e.afterStep2 _ _

theorem State.toStep2_other (h : k ≠ n) (s : State) : (s.toStep2 n).axes[k] = s.axes[k] :=
  (State.OnAxis.refl n s).toStep2.axes k h

theorem State.toStep2_keeps_off (n : AxisId) (h : s.axes[k].legs.Off) : (s.toStep2 n).axes[k].legs.Off := by
  by_cases e : k = n
  · subst e
    exact s.toStep2_off k
  · rw [State.toStep2_other e]
    exact h

end Step2

/-! ## The end of a bank release (R351) -/

section BankRelease

variable {s : State} {b : BankId} {n k : AxisId}

/-- The axes at a list of positions go to step 2. -/
def State.allToStep2 (b : BankId) (l : List Pos) (s : State) : State := s.each l fun p t => t.toStep2 (axisAt b p)

theorem State.allToStep2_cons (p : Pos) (l : List Pos) (s : State) :
    s.allToStep2 b (p :: l) = (s.toStep2 (axisAt b p)).allToStep2 b l := rfl

theorem State.allToStep2_other {l : List Pos} (h : k ∉ l.map (axisAt b)) (s : State) :
    (s.allToStep2 b l).axes[k] = s.axes[k] := by
  induction l generalizing s with
  | nil => rfl
  | cons p l ih =>
    obtain ⟨head, tail⟩ := not_or.mp (mt List.mem_cons.mpr h)
    rw [State.allToStep2_cons, ih tail, State.toStep2_other head]

theorem State.allToStep2_keeps_off (l : List Pos) (h : s.axes[k].legs.Off) : (s.allToStep2 b l).axes[k].legs.Off :=
  State.each_keeps (fun t => t.axes[k].legs.Off) _ (fun _ _ => State.toStep2_keeps_off _) l s h

theorem State.allToStep2_off {l : List Pos} (h : k ∈ l.map (axisAt b)) (s : State) :
    (s.allToStep2 b l).axes[k].legs.Off := by
  induction l generalizing s with
  | nil => exact absurd h List.not_mem_nil
  | cons p l ih =>
    rw [State.allToStep2_cons]
    rcases List.mem_cons.mp h with rfl | tail
    · exact State.allToStep2_keeps_off l (s.toStep2_off _)
    · exact ih tail _

/-- Axis k is another axis of bank b that is in the bank's release (R351). -/
def State.Released (b : BankId) (n k : AxisId) (s : State) : Prop :=
  bankOf k = b ∧ k ≠ n ∧ s.axes[k].legs.bankRel = true ∧ s.axes[k].legs.rel ≠ .none

/-- The positions of the other axes in a bank's release. -/
def State.releasedPos (b : BankId) (n : AxisId) (s : State) : List Pos :=
  allPos.filter fun p => let l := s.axes[axisAt b p].legs
    decide (axisAt b p ≠ n) && l.bankRel && decide (l.rel ≠ .none)

theorem State.mem_releasedPos : k ∈ (s.releasedPos b n).map (axisAt b) ↔ s.Released b n k := by
  have at_ (p : Pos) : p ∈ s.releasedPos b n ↔ s.Released b n (axisAt b p) := by
    simp [State.releasedPos, State.Released, allPos, and_assoc]
  rw [List.mem_map]
  constructor
  · rintro ⟨p, hp, rfl⟩
    exact (at_ p).mp hp
  · intro h
    have place : axisAt b (posOf k) = k := by rw [← h.1, axisAt_bankOf_posOf]
    exact ⟨posOf k, (at_ _).mpr (place.symm ▸ h), place⟩

theorem State.endBankRelease_eq (b : BankId) (n : AxisId) (s : State) :
    s.endBankRelease b n = s.allToStep2 b (s.releasedPos b n) := rfl

theorem State.endBankRelease_off (h : s.Released b n k) : (s.endBankRelease b n).axes[k].legs.Off := by
  rw [State.endBankRelease_eq]
  exact State.allToStep2_off (State.mem_releasedPos.mpr h) s

theorem State.endBankRelease_other (h : ¬ s.Released b n k) : (s.endBankRelease b n).axes[k] = s.axes[k] := by
  rw [State.endBankRelease_eq]
  exact State.allToStep2_other (mt State.mem_releasedPos.mp h) s

theorem State.endBankRelease_self (b : BankId) (n : AxisId) (s : State) :
    (s.endBankRelease b n).axes[n] = s.axes[n] :=
  State.endBankRelease_other fun h => h.2.1 rfl

theorem State.toStep2_inBank (p : Pos) (s : State) : s.InBank b (s.toStep2 (axisAt b p)) := by
  have step := (State.OnAxis.refl (axisAt b p) s).toStep2.toInBank
  rwa [bankOf_axisAt] at step

theorem State.endBankRelease_inBank (b : BankId) (n : AxisId) (s : State) : s.InBank b (s.endBankRelease b n) := by
  rw [State.endBankRelease_eq]
  exact State.each_keeps (s.InBank b) _ (fun p t h => h.trans (t.toStep2_inBank p)) _ s (.refl b s)

end BankRelease

end Sys2Proof.Machine
end

section
/-! SUPPORT. A fault in a leg: what it records, and whether it starts a release, ends one or only records (R347 to R351). -/
namespace Sys2Proof.Machine

/-! ## The byte of a leg (R366) -/

section Record

variable {f : LegFault} {leg : Pos} {blocks : Bool} {l : LegsBank}

theorem LegsBank.record_same (leg : Pos) (bit : Nat) (l : LegsBank) :
    (l.record leg bit).flt[leg] = l.flt[leg] ||| (1#8 <<< bit) :=
  Vector.getElem_set_self ..

theorem LegsBank.record_bit {i bit : Nat} (hi : i < 8) (h : i = bit ∨ l.flt[leg].getLsbD i = true) :
    (l.record leg bit).flt[leg].getLsbD i = true := by
  rw [LegsBank.record_same, BitVec.getLsbD_or, Bool.or_eq_true]
  rcases h with rfl | h
  · exact .inr (by simp [hi])
  · exact .inl h

theorem LegFault.bit_lt (f : LegFault) : f.bit < 8 := by cases f <;> decide

/-- What a fault records: its own bit, and bit 7 where the switch does not block (R348). -/
def LegsBank.recorded (f : LegFault) (leg : Pos) (blocks : Bool) (l : LegsBank) : LegsBank :=
  if !blocks && decide (f ≠ .xon) then (l.record leg f.bit).record leg 7 else l.record leg f.bit

theorem LegsBank.recorded_frame (f : LegFault) (leg : Pos) (blocks : Bool) (l : LegsBank) :
    ∃ flt, l.recorded f leg blocks = { l with flt } := by
  unfold LegsBank.recorded
  split
  · exact ⟨_, rfl⟩
  · exact ⟨_, rfl⟩

theorem LegsBank.recorded_bit (f : LegFault) (leg : Pos) (blocks : Bool) (l : LegsBank) :
    (l.recorded f leg blocks).flt[leg].getLsbD f.bit = true := by
  have own : (l.record leg f.bit).flt[leg].getLsbD f.bit = true := LegsBank.record_bit f.bit_lt (.inl rfl)
  unfold LegsBank.recorded
  split
  · exact LegsBank.record_bit f.bit_lt (.inr own)
  · exact own

theorem LegsBank.recorded_shorted (hb : blocks = false) (hf : f ≠ .xon) (leg : Pos) (l : LegsBank) :
    (l.recorded f leg blocks).flt[leg].getLsbD 7 = true := by
  have e : l.recorded f leg blocks = (l.record leg f.bit).record leg 7 := if_pos (by simp [hb, hf])
  rw [e]
  exact LegsBank.record_bit (by decide) (.inl rfl)

end Record

/-! ## What a fault answers (R347 to R351) -/

section Fault

variable (n : AxisId) {f : LegFault} (leg : Pos) (blocks : Bool) {l : LegsBank}

/-- Step 1 after a fault: a leg that stays off keeps the level it was told (R346 to R348). -/
def LegsBank.started (n : AxisId) (f : LegFault) (leg : Pos) (blocks : Bool) (l : LegsBank) : LegsBank :=
  let x := (l.recorded f leg blocks).step1 f.highSide false (.axis n, f.axisBit)
  if !blocks || decide (f = .xon) then
    { x with held := x.held ||| (1#4 <<< leg.val), cut := x.cut.set leg.val l.cut[leg.val] }
  else x

theorem LegsBank.started_frame (f : LegFault) (l : LegsBank) : ∃ held cut, l.started n f leg blocks =
    { (l.recorded f leg blocks).step1 f.highSide false (.axis n, f.axisBit) with held, cut } := by
  unfold LegsBank.started
  extract_lets x
  split
  · exact ⟨_, _, rfl⟩
  · exact ⟨_, _, rfl⟩

/-- Without a release or a latch, step 1 starts (R347). -/
theorem LegsBank.fault_free (hr : l.rel = .none) (hl : l.latch = false) :
    l.fault n f leg blocks = (l.started n f leg blocks, true, false) := by
  simp only [LegsBank.fault, hr, hl]
  rfl

/-- A latched axis only records (R351). -/
theorem LegsBank.fault_latched (hr : l.rel = .none) (hl : l.latch = true) :
    l.fault n f leg blocks = (l.recorded f leg blocks, false, false) := by
  simp only [LegsBank.fault, hr, hl]
  rfl

/-- The fault lies in the side through which a release freewheels (R351). -/
def LegsBank.Ends (f : LegFault) (l : LegsBank) : Prop :=
  l.rel = .highs ∧ f.highSide = true ∨ l.rel = .lows ∧ l.enRel = false ∧ f.highSide = false

theorem LegFault.lowSide {f : LegFault} (h : f.highSide = false) : f = .dsl ∨ f = .ocl ∨ f = .uvl ∨ f = .xon := by
  cases f <;> simp_all [LegFault.highSide]

/-- A fault in the freewheeling side, in a leg that is not held off, brings step 2 (R351). -/
theorem LegsBank.fault_ends (h : l.Ends f) (hh : l.held.getLsbD leg.val = false) :
    l.fault n f leg blocks = ((l.recorded f leg blocks).toStep2, true, true) := by
  rcases h with ⟨hr, hf⟩ | ⟨hr, he, hf⟩
  · simp only [LegsBank.fault, hr, hf, hh]
    rfl
  · simp only [LegsBank.fault, hr, he, hh, if_pos (LegFault.lowSide hf)]
    rfl

/-- A fault in a leg that a release holds off is recorded and does no more (R348, R351). -/
theorem LegsBank.fault_heldOff (hr : l.rel ≠ .none) (he : l.enRel = false) (hh : l.held.getLsbD leg.val = true) :
    l.fault n f leg blocks = (l.recorded f leg blocks, false, false) := by
  cases h : l.rel with
  | none => exact absurd h hr
  | lows =>
    simp only [LegsBank.fault, h, he, hh]
    rfl
  | highs =>
    simp only [LegsBank.fault, h, hh, Bool.not_true, Bool.and_false]
    rfl

/-- Step 2 is the end of a release that runs (R351). -/
theorem LegsBank.fault_step2 (h : (l.fault n f leg blocks).2.2 = true) : l.rel ≠ .none := by
  intro hr
  cases hl : l.latch with
  | false =>
    rw [LegsBank.fault_free n leg blocks hr hl] at h
    exact Bool.false_ne_true h
  | true =>
    rw [LegsBank.fault_latched n leg blocks hr hl] at h
    exact Bool.false_ne_true h

end Fault

/-! ## A fault in the state -/

section State

variable {s : State} {n k : AxisId} {f : LegFault} {leg : Pos} {blocks : Bool} {l : LegsBank}

theorem State.tellRelease_axes (n : AxisId) (i : BlockId) (bit : Nat) (s : State) : (s.tellRelease n i bit).axes = s.axes :=
  rfl

theorem State.tellRelease_same (n m : AxisId) (bit : Nat) (s : State) : (s.tellRelease n (.axis m) bit).banks[bankOf n] =
    { s.banks[bankOf n] with events := s.banks[bankOf n].events ++ [.fault (.axis m) bit, .axisOff (posOf n)] } := by
  unfold State.tellRelease
  rw [State.bankTell_foreign rfl, State.bankTell_foreign rfl, List.append_assoc]
  rfl

/-- The legs of the axis after the fault, and its loops released (R346, R347). -/
def State.takeLegs (n : AxisId) (l : LegsBank) (s : State) : State := s.modAxis n fun a => { a.force false with legs := l }

theorem State.takeLegs_same (n : AxisId) (l : LegsBank) (s : State) :
    (s.takeLegs n l).axes[n] = { s.axes[n].force false with legs := l } :=
  State.modAxis_same s n _

/-- A fault on its own axis, before it spreads in a release of bank scope (R347, R351). -/
def State.axisFault (n : AxisId) (f : LegFault) (leg : Pos) (blocks : Bool) (s : State) : State :=
  let r := s.axes[n].legs.fault n f leg blocks
  let s1 := s.takeLegs n r.1
  let s2 := if r.2.1 then s1.tellRelease n (.axis n) f.axisBit else s1
  if r.2.2 then s2.afterStep2 n else s2

theorem State.axisFault_onAxis (n : AxisId) (f : LegFault) (leg : Pos) (blocks : Bool) (s : State) :
    s.OnAxis n (s.axisFault n f leg blocks) := by
  unfold State.axisFault
  extract_lets r s1 s2
  have h1 : s.OnAxis n s1 := (State.OnAxis.refl n s).modAxis _
  have h2 : s.OnAxis n s2 := .ite ((h1.bankTell _).bankTell _) h1
  exact .ite h2.afterStep2 h2

/-- A fault that only records. -/
theorem State.axisFault_records (h : s.axes[n].legs.fault n f leg blocks = (l, false, false)) :
    s.axisFault n f leg blocks = s.takeLegs n l := by
  simp only [State.axisFault, h]
  rfl

/-- A fault that starts a release. -/
theorem State.axisFault_starts (h : s.axes[n].legs.fault n f leg blocks = (l, true, false)) :
    s.axisFault n f leg blocks = (s.takeLegs n l).tellRelease n (.axis n) f.axisBit := by
  simp only [State.axisFault, h]
  rfl

/-- A fault that ends one. -/
theorem State.axisFault_ends (h : s.axes[n].legs.fault n f leg blocks = (l, true, true)) :
    s.axisFault n f leg blocks = ((s.takeLegs n l).tellRelease n (.axis n) f.axisBit).afterStep2 n := by
  simp only [State.axisFault, h]
  rfl

end State

end Sys2Proof.Machine
end

section
/-! PROOF. Leg faults, the end of a release and of a retry wait (R342 to R351, R357). -/
namespace Sys2Proof.Machine

/-! ## A fault in a powered bank (R347 to R351) -/

section Powered

variable {s : State} {n k : AxisId} {f : LegFault} {leg : Pos} {blocks told : Bool} {l : LegsBank}

theorem State.legFault_eq (on : s.banks[bankOf n].powered = true) : s.legFault n f leg blocks =
    if (s.axes[n].legs.fault n f leg blocks).2.2 && s.axes[n].legs.bankRel then
      (s.axisFault n f leg blocks).endBankRelease (bankOf n) n
    else s.axisFault n f leg blocks :=
  if_pos on

theorem State.legFault_self (on : s.banks[bankOf n].powered = true) :
    (s.legFault n f leg blocks).axes[n] = (s.axisFault n f leg blocks).axes[n] := by
  rw [State.legFault_eq on]
  split
  · exact State.endBankRelease_self ..
  · rfl

theorem State.legFault_inBank (on : s.banks[bankOf n].powered = true) :
    s.InBank (bankOf n) (s.legFault n f leg blocks) := by
  have own := (s.axisFault_onAxis n f leg blocks).toInBank
  rw [State.legFault_eq on]
  exact .ite (own.trans (State.endBankRelease_inBank ..)) own

theorem State.axisFault_released : (s.axisFault n f leg blocks).Released (bankOf n) n k ↔ s.Released (bankOf n) n k := by
  unfold State.Released
  refine and_congr_right fun _ => and_congr_right fun other => ?_
  rw [(s.axisFault_onAxis n f leg blocks).axes k other]

/-- Another axis stays as it is, unless both are in a release of bank scope (R351). -/
theorem State.legFault_other (on : s.banks[bankOf n].powered = true) (hk : k ≠ n) :
    (s.legFault n f leg blocks).axes[k] = s.axes[k] ∨
      (bankOf k = bankOf n ∧ s.axes[n].legs.bankRel = true ∧ s.axes[n].legs.rel ≠ .none ∧
        s.axes[k].legs.bankRel = true ∧ s.axes[k].legs.rel ≠ .none) := by
  have own := (s.axisFault_onAxis n f leg blocks).axes k hk
  rw [State.legFault_eq on]
  split
  · next spreads =>
    obtain ⟨ends, bank⟩ := Bool.and_eq_true_iff.mp spreads
    by_cases h : s.Released (bankOf n) n k
    · obtain ⟨here, -, rel⟩ := h
      exact .inr ⟨here, bank, LegsBank.fault_step2 n leg blocks ends, rel⟩
    · exact .inl ((State.endBankRelease_other (mt State.axisFault_released.mp h)).trans own)
  · exact .inl own

/-! Each outcome, by the legs l of the axis. -/

variable (on : s.banks[bankOf n].powered = true) (hl : s.axes[n].legs = l)
include on hl

/-- A fault that brings no step 2 stays with its axis. -/
theorem State.legFault_stays {m : LegsBank} (h : l.fault n f leg blocks = (m, told, false)) :
    s.legFault n f leg blocks = s.axisFault n f leg blocks := by
  rw [State.legFault_eq on, hl, h]
  rfl

/-- A fault that only records (R348, R351). -/
theorem State.legFault_records (h : l.fault n f leg blocks = (l.recorded f leg blocks, false, false)) :
    (s.legFault n f leg blocks).axes[n].legs.rel = l.rel ∧ (s.legFault n f leg blocks).axes[n].legs.step2 = l.step2 ∧
    (s.legFault n f leg blocks).axes[n].legs.flt[leg].getLsbD f.bit = true ∧
    (s.legFault n f leg blocks).banks = s.banks := by
  have bit := l.recorded_bit f leg blocks
  obtain ⟨flt, e⟩ := l.recorded_frame f leg blocks
  rw [State.legFault_stays on hl h, State.axisFault_records (by rw [hl]; exact h), State.takeLegs_same]
  rw [e] at bit ⊢
  exact ⟨rfl, rfl, bit, rfl⟩

/-- A fault that starts a release: it is told, and the axis is to take OFF (R347, R353). -/
theorem State.legFault_starts (hr : l.rel = .none) (latch : l.latch = false) :
    (∃ held cut, (s.legFault n f leg blocks).axes[n].legs =
      { (l.recorded f leg blocks).step1 f.highSide false (.axis n, f.axisBit) with held, cut }) ∧
    (s.legFault n f leg blocks).banks[bankOf n] = { s.banks[bankOf n] with
      events := s.banks[bankOf n].events ++ [.fault (.axis n) f.axisBit, .axisOff (posOf n)] } := by
  have h := LegsBank.fault_free n leg blocks (f := f) hr latch
  obtain ⟨held, cut, started⟩ := LegsBank.started_frame n leg blocks f l
  rw [State.legFault_stays on hl h, State.axisFault_starts (by rw [hl]; exact h)]
  refine ⟨⟨held, cut, ?_⟩, State.tellRelease_same ..⟩
  rw [State.tellRelease_axes, State.takeLegs_same]
  exact started

/-- A fault that ends the release of its axis (R351). -/
theorem State.legFault_ends (h : l.Ends f) (held : l.held.getLsbD leg.val = false) :
    (s.legFault n f leg blocks).axes[n].legs.Off := by
  have ends := LegsBank.fault_ends n leg blocks h held
  rw [State.legFault_self on, State.axisFault_ends (by rw [hl]; exact ends), State.afterStep2_same]
  refine LegsBank.Off.afterStep2 ?_ _ _
  rw [State.tellRelease_axes, State.takeLegs_same]
  exact LegsBank.toStep2_off _

/-- In a release of bank scope it ends that of every axis (R351). -/
theorem State.legFault_spreads (h : l.Ends f) (held : l.held.getLsbD leg.val = false) (bank : l.bankRel = true)
    (hk : s.Released (bankOf n) n k) : (s.legFault n f leg blocks).axes[k].legs.Off := by
  rw [State.legFault_eq on, hl, LegsBank.fault_ends n leg blocks h held, bank]
  exact State.endBankRelease_off (State.axisFault_released.mpr hk)

end Powered

/-! ## The commands of a fault -/

section Commands

variable {s : State} {n : AxisId} {f : LegFault} {leg : Pos} {blocks : Bool}

/-- Legs with other gate supplies found low (R343). -/
def LegsBank.withUv (v : Vector (BitVec 2) 4) (l : LegsBank) : LegsBank := { l with uv := v }

/-- The state with other gate supplies of an axis found low (R343). -/
def State.withUv (n : AxisId) (v : Vector (BitVec 2) 4) (s : State) : State := s.modLegs n (LegsBank.withUv v)

theorem State.withUv_self (n : AxisId) (s : State) : s.withUv n s.axes[n].legs.uv = s := by
  have axes : s.axes.set n.val s.axes[n] = s.axes := Vector.set_getElem_self _
  exact congrArg (fun a => { s with axes := a }) axes

/-- A command that answers what a fault does, the supplies that are low aside, does what a fault does. -/
theorem legFaultDoes {c : Instr} (v : Vector (BitVec 2) 4) (he : exec c s = .next (if s.banks[bankOf n].powered then
    (s.withUv n v).legFault n f leg blocks else s)) : LegFaultDoes c s n f leg blocks := by
  unfold LegFaultDoes
  extract_lets b l
  refine ⟨fun off => ?_, fun on => ?_⟩
  · rw [he, off]
    rfl
  have legs : (s.withUv n v).axes[n].legs = l.withUv v := congrArg Axis.legs (State.modLegs_same n _ s)
  have first : s.OnAxis n (s.withUv n v) := (State.OnAxis.refl n s).modLegs _
  have onV : (s.withUv n v).banks[bankOf n].powered = true := on
  have inBank : s.InBank b ((s.withUv n v).legFault n f leg blocks) := first.toInBank.trans (State.legFault_inBank onV)
  refine ⟨_, by rw [he, on]; rfl, inBank.frame, fun k hk => ?_, inBank.others, ?_, fun rel latch => ?_,
    fun rel latch => ?_, fun rel en low held => State.legFault_ends onV legs (.inr ⟨rel, en, low⟩) held,
    fun rel high held => State.legFault_ends onV legs (.inl ⟨rel, high⟩) held,
    fun rel en held => ?_, fun bank held side k here bankK relK => ?_⟩
  · have other := State.legFault_other (f := f) (leg := leg) (blocks := blocks) onV hk
    rwa [first.axes k hk, legs] at other
  · rw [State.legFault_self onV, (State.axisFault_onAxis ..).eng, first.eng]
  · obtain ⟨⟨_, _, started⟩, bank⟩ := State.legFault_starts (f := f) (leg := leg) (blocks := blocks) onV legs rel latch
    rw [started]
    exact ⟨rfl, rfl, rfl, rfl, LegsBank.recorded_bit .., fun hb hf => LegsBank.recorded_shorted hb hf .., bank⟩
  · obtain ⟨same, step2, bit, banks⟩ := State.legFault_records onV legs (LegsBank.fault_latched n leg blocks rel latch)
    exact ⟨by rw [banks]; rfl, same.trans rel, bit, step2⟩
  · obtain ⟨same, -, bit, banks⟩ := State.legFault_records onV legs (LegsBank.fault_heldOff n leg blocks rel en held)
    exact ⟨same, bit, by rw [banks]; rfl⟩
  · by_cases e : k = n
    · subst e
      exact State.legFault_ends onV legs side held
    · refine State.legFault_spreads onV legs side held bank ⟨here, e, ?_⟩
      rw [first.axes k e]
      exact ⟨bankK, relK⟩

/-- A command that answers what a fault does, does it. -/
theorem legFaultDoes_of_fault {c : Instr} (he : exec c s = .next (s.legFault n f leg blocks)) :
    LegFaultDoes c s n f leg blocks := by
  refine legFaultDoes s.axes[n].legs.uv (he.trans (congrArg Host.Outcome.next ?_))
  rw [State.withUv_self]
  unfold State.legFault
  split <;> rfl

theorem desaturation_does {at_ : LegAt} {high : Bool} (h : s.commandedOn n at_ high = true) (blocks : Bool) :
    LegFaultDoes (.desaturation n at_ high blocks) s n (if high then .dsh else .dsl) at_.leg blocks :=
  legFaultDoes_of_fault (congrArg Host.Outcome.next (if_pos h))

theorem gateSupplyUv_does (high blocks : Bool) :
    LegFaultDoes (.gateSupplyUv n leg high blocks) s n (if high then .uvh else .uvl) leg blocks :=
  legFaultDoes (s.axes[n].legs.setUv leg high true).uv rfl

theorem LegsBank.setUv_clears (leg : Pos) (high : Bool) (l : LegsBank) :
    (l.setUv leg high false).uv[leg].getLsbD (if high then 0 else 1) = false := by
  have e : (l.setUv leg high false).uv[leg] = l.uv[leg] &&& ~~~(if high then 1 else 2) := Vector.getElem_set_self ..
  rw [e]
  cases high <;> simp

end Commands

/-! ## The end of a release and of a retry wait (R349, R357) -/

section End

variable {s : State} {n : AxisId}

theorem State.retried_toStep2 (n : AxisId) (s : State) : (s.modLegs n LegsBank.toStep2).retried n =
    s.axes[n].legs.toStep2.afterStep2 s.part.retries (fieldN (s.bA (bankOf n).val 0x2101 0) 0 3) := by
  unfold State.retried
  rw [State.modLegs_same]
  rfl

theorem State.toStep2_same (n : AxisId) (s : State) : (s.toStep2 n).axes[n].legs =
    (s.axes[n].legs.toStep2.afterStep2 s.part.retries (fieldN (s.bA (bankOf n).val 0x2101 0) 0 3)).1 := by
  unfold State.toStep2
  rw [State.afterStep2_same, State.retried_toStep2]

theorem State.toStep2_latch (n : AxisId) (s : State) : (s.toStep2 n).axes[n].legs.latch = s.axes[n].legs.latch := by
  obtain ⟨_, _, _, e⟩ := s.axes[n].legs.toStep2.afterStep2_keeps s.part.retries (fieldN (s.bA (bankOf n).val 0x2101 0) 0 3)
  rw [State.toStep2_same, e]
  rfl

/-- With retries left, the wait for the next one begins (R357). -/
theorem State.toStep2_waits (auto : s.part.retries = true) (latch : s.axes[n].legs.latch = true)
    (left : s.axes[n].legs.tries.toNat < fieldN (s.bA (bankOf n).val 0x2101 0) 0 3) :
    (s.toStep2 n).axes[n].legs.rpend = true ∧ (s.toStep2 n).axes[n].legs.waiting = true := by
  rw [State.toStep2_same, auto, LegsBank.afterStep2_waits (l := s.axes[n].legs.toStep2) latch left]
  exact ⟨rfl, rfl⟩

/-- With none left, the node is told (R357). -/
theorem State.toStep2_told (auto : s.part.retries = true) (latch : s.axes[n].legs.latch = true)
    (spent : fieldN (s.bA (bankOf n).val 0x2101 0) 0 3 ≤ s.axes[n].legs.tries.toNat) :
    (s.toStep2 n).banks[bankOf n].events = s.banks[bankOf n].events ++ [.fault (.axis n) 26] := by
  refine State.afterStep2_told ?_
  rw [State.retried_toStep2, auto, LegsBank.afterStep2_ends (l := s.axes[n].legs.toStep2) latch spent]

end End

/-! ## The statement -/

/-- Settles O47: a fault by whether it starts a release, ends one or only records, under each command that brings it; the
end of a release by its step 2 and what the retries make of it. -/
theorem legProtection : Obligations.LegProtection := by
  unfold Obligations.LegProtection
  intro s n leg at_ l
  refine ⟨fun blocks => ⟨fun on => desaturation_does on blocks, fun on => desaturation_does on blocks,
      fun high off => congrArg Host.Outcome.next (if_neg (Bool.eq_false_iff.mp off)), legFaultDoes_of_fault rfl,
      gateSupplyUv_does true blocks, gateSupplyUv_does false blocks⟩,
    legFaultDoes_of_fault rfl, fun j high b => ⟨_, rfl, rfl, ?_⟩, fun b => rfl,
    fun rel => congrArg Host.Outcome.next (if_pos rel), fun rel => ?_, fun pend wait run due => ?_,
    fun idle => congrArg Host.Outcome.next (if_neg fun h => ?_)⟩
  · rw [State.modLegs_same]
    exact LegsBank.setUv_clears _ high _
  · obtain ⟨ended, step2⟩ := s.toStep2_off n
    exact ⟨_, congrArg Host.Outcome.next (if_neg rel), (State.OnAxis.refl n s).toStep2.frame, ended, step2,
      s.toStep2_latch n, State.toStep2_waits, State.toStep2_told⟩
  · refine ⟨_, congrArg Host.Outcome.next (if_pos ⟨pend, wait, run, due⟩), ?_, State.bankTell_events .., rfl⟩
    rw [State.bankTell_axes, State.modLegs_same]
  · obtain ⟨-, -, run, due⟩ := h
    rcases idle with halted | early
    · exact halted run
    · exact Nat.not_lt.mpr due early

end Sys2Proof.Machine
end

section
/-! PROOF. The end of a spare swap, of a return and of a calibration (R360 to R362, R364, R532). -/
namespace Sys2Proof.Machine

/-! ## Spares and their terminals (R360, R362) -/

/-- One of the two spares of a bank; `true` is SP2. -/
def spareAt (second : Bool) (sp : Vector Spare 2) : Spare := if second then sp[1] else sp[0]

theorem spareAt_setSpare (second : Bool) (f : Spare → Spare) (sp : Vector Spare 2) :
    spareAt second (setSpare second f sp) = f (spareAt second sp) := by cases second <;> rfl

/-- A terminal that is served has its byte cleared (R360). -/
theorem LegsBank.served_flt (leg : Nat) (l : LegsBank) : (l.served leg).flt[leg % 4]'(by omega) = 0 := by
  simp [LegsBank.served]

/-- The axis of the terminal that is swapped. -/
def SwapRun.axis (b : BankId) (r : SwapRun) : AxisId := axisAt b ⟨r.leg.val / 4, by omega⟩

/-! ## What the bank tells of a swap that failed (R361, R364) -/

/-- What the bank tells of a failed swap. -/
def swapFailEvents (b : BankId) (n : AxisId) (series : Bool) : List BankEvent :=
  .fault (.axis n) 25 :: if series then [] else [.fault (.bank b) 8]

theorem State.tellSwapFail_same (b : BankId) (n : AxisId) (series : Bool) (s : State) :
    ∃ flt, (s.tellSwapFail b n series).banks[b] =
      { s.banks[b] with events := s.banks[b].events ++ swapFailEvents b n series, flt } := by
  have axis := s.bankTell_same b (.fault (.axis n) 25)
  cases series with
  | true => exact ⟨_, axis⟩
  | false =>
    have both := (s.bankTell b (.fault (.axis n) 25)).bankTell_same b (.fault (.bank b) 8)
    rw [axis, List.append_assoc] at both
    exact ⟨_, both⟩

theorem State.tellSwapFail_axes (b : BankId) (n : AxisId) (series : Bool) (s : State) :
    (s.tellSwapFail b n series).axes = s.axes := by cases series <;> rfl

theorem State.InBank.tellSwapFail {b : BankId} {s t : State} (h : s.InBank b t) (n : AxisId) (series : Bool) :
    s.InBank b (t.tellSwapFail b n series) :=
  .ite (h.bankTell _) ((h.bankTell _).bankTell _)

/-! ## Outcomes (R360, R361, R364) -/

/-- A swap or return that succeeds: the bank becomes g of it, the terminal is served, and the result is told (R360). -/
def State.swapEnds (b : BankId) (r : SwapRun) (g : Bank → Bank) (s : State) : State :=
  ((s.modBank b g).modLegs (r.axis b) (LegsBank.served r.leg.val)).bankTell b (.swapDone 0 r.byte)

/-- A swap or return that fails: the bank becomes g of it, and the failure and the result are told (R361, R364). -/
def State.swapFails (b : BankId) (r : SwapRun) (g : Bank → Bank) (series : Bool) (result : BitVec 2) (s : State) : State :=
  ((s.modBank b g).tellSwapFail b (r.axis b) series).bankTell b (.swapDone result r.byte)

section Outcome

variable {s : State} {b : BankId} {r : SwapRun} {ok series : Bool} {g : Bank → Bank}

theorem State.swapEnds_inBank (b : BankId) (r : SwapRun) (g : Bank → Bank) (s : State) : s.InBank b (s.swapEnds b r g) :=
  (((State.InBank.refl b s).modBank g).modLegs _ _).bankTell _

theorem State.swapEnds_flt (b : BankId) (r : SwapRun) (g : Bank → Bank) (s : State) :
    (s.swapEnds b r g).axes[r.axis b].legs.flt[r.leg.val % 4]'(by omega) = 0 := by
  unfold State.swapEnds
  simp only [State.bankTell_axes, State.modLegs_same]
  exact LegsBank.served_flt _ _

theorem State.swapEnds_bank (hg : (g s.banks[b]).events = s.banks[b].events) : (s.swapEnds b r g).banks[b] =
    { g s.banks[b] with events := s.banks[b].events ++ [.swapDone 0 r.byte] } := by
  have bank : ((s.modBank b g).modLegs (r.axis b) (LegsBank.served r.leg.val)).banks[b] = g s.banks[b] :=
    s.modBank_same b g
  unfold State.swapEnds
  rw [State.bankTell_foreign rfl, bank, hg]

theorem State.swapFails_inBank (b : BankId) (r : SwapRun) (g : Bank → Bank) (series : Bool) (result : BitVec 2)
    (s : State) : s.InBank b (s.swapFails b r g series result) :=
  (((State.InBank.refl b s).modBank g).tellSwapFail _ _).bankTell _

theorem State.swapFails_axes (b : BankId) (r : SwapRun) (g : Bank → Bank) (series : Bool) (result : BitVec 2)
    (s : State) : (s.swapFails b r g series result).axes = s.axes :=
  (s.modBank b g).tellSwapFail_axes b (r.axis b) series

theorem State.swapFails_bank {result : BitVec 2} (hg : (g s.banks[b]).events = s.banks[b].events) :
    ∃ flt, (s.swapFails b r g series result).banks[b] = { g s.banks[b] with
      events := s.banks[b].events ++ (swapFailEvents b (r.axis b) series ++ [.swapDone result r.byte]), flt } := by
  obtain ⟨flt, bank⟩ := (s.modBank b g).tellSwapFail_same b (r.axis b) series
  refine ⟨flt, ?_⟩
  unfold State.swapFails
  rw [State.bankTell_foreign rfl, bank, State.modBank_same, hg, List.append_assoc]

/-! ## What completes (R360, R361, R364) -/

/-- The terminal of a failed swap gets its own leg back, or is isolated (R361). -/
def LegsBank.restored (back : Bool) (leg : LegId) (l : LegsBank) : LegsBank :=
  let bit : BitVec 4 := 1#4 <<< (leg.val % 4)
  { l with isolLegs := if back then l.isolLegs &&& ~~~bit else l.isolLegs ||| bit }

/-- The bank after a return that succeeded: the spare is free (R364). -/
def Bank.returned (r : SwapRun) (k : Bank) : Bank :=
  { k with spares := setSpare r.second (fun _ => {}) k.spares, swap := none }

/-- The bank after a return that failed: the spare goes on serving (R364). -/
def Bank.returnFailed (r : SwapRun) (k : Bank) : Bank :=
  { k with spares := setSpare r.second (fun x => { x with swp := false }) k.spares, swap := none }

theorem State.swapComplete_idle (h : s.banks[b].swap = none) : s.swapComplete b ok series = s := by
  simp only [State.swapComplete, h]

section Run

variable (h : s.banks[b].swap = some r)
include h

theorem State.swapComplete_serves (hr : r.ret = false) :
    s.swapComplete b true true = s.swapEnds b r (Bank.swapped r) := by
  simp only [State.swapComplete, h, hr]
  rfl

theorem State.swapComplete_fails (hr : r.ret = false) (hf : (ok && series) = false) : s.swapComplete b ok series =
    (s.swapFails b r (Bank.swapFailed r) series (if s.banks[b].ownUsable r then 1 else 2)).modLegs (r.axis b)
      (LegsBank.restored (s.banks[b].ownUsable r) r.leg) := by
  simp only [State.swapComplete, h, hr, hf]
  rfl

theorem State.swapComplete_returns (hr : r.ret = true) :
    s.swapComplete b true true = s.swapEnds b r (Bank.returned r) := by
  simp only [State.swapComplete, h, hr]
  rfl

theorem State.swapComplete_stays (hr : r.ret = true) (hf : (ok && series) = false) :
    s.swapComplete b ok series = s.swapFails b r (Bank.returnFailed r) series 1 := by
  simp only [State.swapComplete, h, hr, hf]
  rfl

end Run

end Outcome

/-! ## Calibration (R532) -/

theorem State.bankTell_modBank {b : BankId} {e : BankEvent} (h : e.own b = 0) (f : Bank → Bank) (s : State) :
    (s.modBank b f).bankTell b e = s.modBank b fun k => { f k with events := (f k).events ++ [e] } := by
  have flt (w : Word) : w ||| e.own b = w := by rw [h]; exact BitVec.or_zero
  simp [State.bankTell, State.modBank, Bank.tell, flt]

/-! ## The statement -/

theorem ownUsable_iff (r : SwapRun) (k : Bank) : k.ownUsable r = true ↔
    (r.byte = 0 ∨ (servedBy k.spares r.leg).isSome = true) ∧ k.retired.getLsbD r.leg.val = false := by
  simp [Bank.ownUsable]

/-- Settles O49: a swap or a return by whether it succeeds, a calibration by whether one runs. -/
theorem swapsAndCalibration : Obligations.SwapsAndCalibration := by
  unfold Obligations.SwapsAndCalibration
  intro s b k
  refine ⟨fun ok series idle => congrArg Host.Outcome.next (State.swapComplete_idle idle), fun r run => ?_,
    fun offsets cal => congrArg Host.Outcome.next ?_,
    fun offsets idle => congrArg Host.Outcome.next (if_neg (Bool.eq_false_iff.mp idle))⟩
  · extract_lets n spare old
    refine ⟨fun swap => ?_, fun swap ok series fails => ?_, fun ret => ?_, fun ret ok series fails => ?_⟩
    · have bank := State.swapEnds_bank (s := s) (b := b) (r := r) (g := Bank.swapped r) rfl
      refine ⟨_, congrArg Host.Outcome.next (State.swapComplete_serves run swap), (State.swapEnds_inBank ..).frame, ?_, ?_,
        State.swapEnds_flt .., ?_⟩
      · exact (congrArg (fun x => spareAt r.second x.spares) bank).trans (spareAt_setSpare ..)
      · exact congrArg Bank.swap bank
      · exact congrArg Bank.events bank
    · obtain ⟨flt, bank⟩ := State.swapFails_bank (s := s) (b := b) (r := r) (g := Bank.swapFailed r)
        (series := series) (result := if k.ownUsable r then 1 else 2) rfl
      refine ⟨_, congrArg Host.Outcome.next (State.swapComplete_fails run swap fails),
        ((State.swapFails_inBank ..).modLegs _ _).frame, ?_, ?_, ?_⟩
      · exact (congrArg (fun x => (spareAt r.second x.spares).st) bank).trans (congrArg Spare.st (spareAt_setSpare ..))
      · exact congrArg Bank.swap bank
      · refine (congrArg Bank.events bank).trans ?_
        simp only [ownUsable_iff]
        rfl
    · have bank := State.swapEnds_bank (s := s) (b := b) (r := r) (g := Bank.returned r) rfl
      refine ⟨_, congrArg Host.Outcome.next (State.swapComplete_returns run ret), ?_, ?_, ?_⟩
      · exact (congrArg (fun x => spareAt r.second x.spares) bank).trans (spareAt_setSpare ..)
      · exact congrArg Bank.swap bank
      · exact congrArg Bank.events bank
    · obtain ⟨flt, bank⟩ := State.swapFails_bank (s := s) (b := b) (r := r) (g := Bank.returnFailed r)
        (series := series) (result := 1) rfl
      refine ⟨_, congrArg Host.Outcome.next (State.swapComplete_stays run ret fails), ?_, ?_, State.swapFails_axes ..⟩
      · exact (congrArg (fun x => spareAt r.second x.spares) bank).trans (spareAt_setSpare ..)
      · exact congrArg Bank.swap bank
  · rw [if_pos cal]
    exact State.bankTell_modBank rfl _ s

end Sys2Proof.Machine
end
